-- ==== Sys2Proof/Word.lean ====
section
/-! DEFINITION. The words of the block (00_scope.md R9, R10): every value is unsigned, and `+` wraps at its width. -/

namespace Sys2Proof

/-- One byte of a message. -/
abbrev Byte := BitVec 8

/-- A register, a command word, or one half of a block (R9). -/
abbrev Word32 := BitVec 32

/-- An 8-byte block, byte 0 in bits 63..56 (R10). -/
abbrev Block := BitVec 64

/-- A 5-bit access descriptor `we ++ idx` (R45). -/
abbrev Descriptor := BitVec 5

end Sys2Proof
end

