-- ==== Sys2Proof/Config.lean ====
section
/-! DEFINITION. What the spec fixes for the block (R6) and what it leaves to the engine and the platform (R7, R35). -/

namespace Sys2Proof

/-- The external block cipher engine under its loaded key (R7, R39): two functions on (left word, right word).
Claims and the completion take an engine as an argument. -/
structure Engine where
  /-- `encipherBlock`. -/
  enc : Word32 × Word32 → Word32 × Word32
  /-- `decipherBlock`. -/
  dec : Word32 × Word32 → Word32 × Word32

/-- The hypothesis `hInv` of R7: `Dec (Enc x) = x`. The converse is not assumed. -/
def Engine.InverseLaw (E : Engine) : Prop := ∀ x, E.dec (E.enc x) = x

namespace Config

/-- `Enc` of this machine's engine: left open by R7 (I1), so it has no body here. Fixed for a run (log entry 8). -/
opaque enc : Word32 × Word32 → Word32 × Word32

/-- `Dec` of this machine's engine: left open by R7 (I1), so it has no body here. Fixed for a run (log entry 8). -/
opaque dec : Word32 × Word32 → Word32 × Word32

/-- The engine `Sys2Proof.Machine.step` runs with. -/
def engine : Engine := { enc := enc, dec := dec }

/-- Which 64-byte slot of the host's address space holds the register window: a platform parameter (R35, I3). -/
opaque windowSlot : Nat

/-- The window's size in bytes (R6, R31). -/
def windowBytes : Nat := 64

/-- `CBC_BASE`, 64-byte aligned (R35; log entry 9). -/
def cbcBase : Nat := windowBytes * windowSlot

/-- The identification word, ASCII "CBC1" (R6, R28). -/
def idWord : Word32 := 0x43424331#32

end Config

end Sys2Proof
end

