-- ==== Sys2Proof/Syntax.lean ====
section
/-! DEFINITION. The instructions: one constructor for each row of opcode_table.json, in the table's order.
A command stands for the host line `cmd OP`, an access for the host lines `rd REG` and `wr REG, imm` (R46). -/

namespace Sys2Proof

/-- The 9 CMDW rows and the 32 ACCESS rows. `nb` is the number a host writes after FINISH; only 0..7 is an
instruction (R40, R46; `Instr.wf`). `v` is the data word of a write (R45). -/
inductive Instr where
  -- commands (R42)
  | nop
  | lockIv
  | startEnc
  | startDec
  | push
  | finish (nb : Nat)
  | abort
  | clear
  | clrErr
  -- register reads (R74 to R87)
  | rdId
  | rdCmd
  | rdStatus
  | rdErr
  | rdIvHi
  | rdIvLo
  | rdDinHi
  | rdDinLo
  | rdDoutHi
  | rdDoutLo
  | rdChainHi
  | rdChainLo
  | rdBlkcnt
  | rdRsv34
  | rdRsv38
  | rdRsv3C
  -- register writes (R89 to R93)
  | wrCmd (v : Word32)
  | wrIvHi (v : Word32)
  | wrIvLo (v : Word32)
  | wrDinHi (v : Word32)
  | wrDinLo (v : Word32)
  -- writes to a read-only or reserved offset (R94)
  | wrRoId (v : Word32)
  | wrRoStatus (v : Word32)
  | wrRoErr (v : Word32)
  | wrRoDoutHi (v : Word32)
  | wrRoDoutLo (v : Word32)
  | wrRoChainHi (v : Word32)
  | wrRoChainLo (v : Word32)
  | wrRoBlkcnt (v : Word32)
  | wrRo34 (v : Word32)
  | wrRo38 (v : Word32)
  | wrRo3C (v : Word32)
  deriving DecidableEq, Repr

end Sys2Proof
end

