-- ==== Sys2Proof/WellFormed.lean ====
section
/-! DEFINITION. Which terms of `Instr` are instructions: an `nb` outside 0..7 does not assemble (R46), because NB has
3 bits (R40). Every other operand is as wide as its field. -/

namespace Sys2Proof

/-- The range of FINISH's operand (R40, R41, R46). -/
def nbInRange (nb : Nat) : Bool := nb < 8

/-- The terms that some word encodes. -/
def Instr.wf (i : Instr) : Bool :=
  match i with
  | .finish nb => nbInRange nb
  | .nop | .lockIv | .startEnc | .startDec | .push | .abort | .clear | .clrErr => true
  | .rdId | .rdCmd | .rdStatus | .rdErr | .rdIvHi | .rdIvLo | .rdDinHi | .rdDinLo => true
  | .rdDoutHi | .rdDoutLo | .rdChainHi | .rdChainLo | .rdBlkcnt | .rdRsv34 | .rdRsv38 | .rdRsv3C => true
  | .wrCmd _ | .wrIvHi _ | .wrIvLo _ | .wrDinHi _ | .wrDinLo _ => true
  | .wrRoId _ | .wrRoStatus _ | .wrRoErr _ | .wrRoDoutHi _ | .wrRoDoutLo _ | .wrRoChainHi _ => true
  | .wrRoChainLo _ | .wrRoBlkcnt _ | .wrRo34 _ | .wrRo38 _ | .wrRo3C _ => true

end Sys2Proof
end

