-- ==== Sys2Proof/Decode.lean ====
section
/-! DEFINITION. The two encodings of 30_encoding.md: the command word CMDW (R40 to R44) and the register access (R45),
decoded and encoded. -/

namespace Sys2Proof

/-- One host line in its encoded form. `cmdw w` is the line `cmd`: the 32-bit write of `w` to CMD (R40, R46).
`access a v` is a register access with descriptor `a` and the write data lines `v` (R32, R45); a read ignores `v`
(log entries 7, 13). -/
inductive Frame where
  | cmdw (w : Word32)
  | access (a : Descriptor) (v : Word32)
  deriving DecidableEq, Repr

/-- What R42's `decode` answers for a legal word. -/
inductive Command where
  | nop
  | lockIv
  | startEnc
  | startDec
  | push
  | finish (nb : BitVec 3)
  | abort
  | clear
  | clrErr
  deriving DecidableEq, Repr

/-- Why a frame is no instruction: R42's ILLEGAL. Every one of the 32 access descriptors has a rule (R45). -/
inductive DecodeError where
  /-- A command word with OP in 0x9..0xF or a reserved bit set (R43). -/
  | illegalCommand (w : Word32)
  deriving DecidableEq, Repr

/-! ### The command word -/

/-- OP = w[3:0] (R40). -/
def cmdOp (w : Word32) : BitVec 4 := w.extractLsb' 0 4

/-- NB = w[6:4] (R40, R41). -/
def cmdNb (w : Word32) : BitVec 3 := w.extractLsb' 4 3

/-- w[31:7], zero in a legal FINISH (R40). -/
def cmdAboveNb (w : Word32) : BitVec 25 := w.extractLsb' 7 25

/-- w[31:4], zero in every other legal command (R40). -/
def cmdAboveOp (w : Word32) : BitVec 28 := w.extractLsb' 4 28

/-- R42's list of the commands without an operand; 0x9..0xF name none. -/
def commandOfOp (op : BitVec 4) : Option Command :=
  match op.toNat with
  | 0x0 => some .nop
  | 0x1 => some .lockIv
  | 0x2 => some .startEnc
  | 0x3 => some .startDec
  | 0x4 => some .push
  | 0x6 => some .abort
  | 0x7 => some .clear
  | 0x8 => some .clrErr
  | _ => none

/-- R42's `decode`; `none` is ILLEGAL. -/
def decodeCommand (w : Word32) : Option Command :=
  if cmdOp w = 0x5#4 then
    if cmdAboveNb w = 0 then some (.finish (cmdNb w)) else none
  else if cmdAboveOp w = 0 then commandOfOp (cmdOp w)
  else none

/-- The instruction `cmd OP` of a decoded command. -/
def Command.toInstr (c : Command) : Instr :=
  match c with
  | .nop => .nop
  | .lockIv => .lockIv
  | .startEnc => .startEnc
  | .startDec => .startDec
  | .push => .push
  | .finish nb => .finish nb.toNat
  | .abort => .abort
  | .clear => .clear
  | .clrErr => .clrErr

/-! ### The access descriptor -/

/-- `we`, bit 4 of the descriptor: 1 for a write (R45). -/
def accessWe (a : Descriptor) : Bool := a.getLsbD 4

/-- `idx`, bits 3..0 of the descriptor (R45). -/
def accessIdx (a : Descriptor) : BitVec 4 := a.extractLsb' 0 4

/-- The read at word index `idx` (R45, descriptors 0x00 to 0x0F). -/
def decodeRead (idx : BitVec 4) : Instr :=
  match idx.toNat with
  | 0x0 => .rdId
  | 0x1 => .rdCmd
  | 0x2 => .rdStatus
  | 0x3 => .rdErr
  | 0x4 => .rdIvHi
  | 0x5 => .rdIvLo
  | 0x6 => .rdDinHi
  | 0x7 => .rdDinLo
  | 0x8 => .rdDoutHi
  | 0x9 => .rdDoutLo
  | 0xA => .rdChainHi
  | 0xB => .rdChainLo
  | 0xC => .rdBlkcnt
  | 0xD => .rdRsv34
  | 0xE => .rdRsv38
  | _ => .rdRsv3C -- 0xF, the one index left

/-- The write at word index `idx` with data `v` (R45, descriptors 0x10 to 0x1F). -/
def decodeWrite (idx : BitVec 4) (v : Word32) : Instr :=
  match idx.toNat with
  | 0x0 => .wrRoId v
  | 0x1 => .wrCmd v
  | 0x2 => .wrRoStatus v
  | 0x3 => .wrRoErr v
  | 0x4 => .wrIvHi v
  | 0x5 => .wrIvLo v
  | 0x6 => .wrDinHi v
  | 0x7 => .wrDinLo v
  | 0x8 => .wrRoDoutHi v
  | 0x9 => .wrRoDoutLo v
  | 0xA => .wrRoChainHi v
  | 0xB => .wrRoChainLo v
  | 0xC => .wrRoBlkcnt v
  | 0xD => .wrRo34 v
  | 0xE => .wrRo38 v
  | _ => .wrRo3C v -- 0xF, the one index left

/-- The access with descriptor `a` and write data lines `v`. -/
def decodeAccess (a : Descriptor) (v : Word32) : Instr :=
  if accessWe a then decodeWrite (accessIdx a) v else decodeRead (accessIdx a)

/-- The decoder, total on every frame; an illegal command word is rejected by name (R42, R43, R45). -/
def decode (f : Frame) : Except DecodeError Instr :=
  match f with
  | .cmdw w =>
    match decodeCommand w with
    | some c => .ok c.toInstr
    | none => .error (.illegalCommand w)
  | .access a v => .ok (decodeAccess a v)

/-! ### The encoder -/

/-- The command word of R42's table. -/
def encodeCommand (c : Command) : Word32 :=
  match c with
  | .nop => 0x0#32
  | .lockIv => 0x1#32
  | .startEnc => 0x2#32
  | .startDec => 0x3#32
  | .push => 0x4#32
  | .finish nb => 0x5#32 ||| (nb.setWidth 32 <<< 4)
  | .abort => 0x6#32
  | .clear => 0x7#32
  | .clrErr => 0x8#32

/-- A read's frame: its write data lines carry nothing. -/
def readFrame (a : Descriptor) : Frame := .access a 0

/-- The frame of an instruction, from the tables of R42 and R45. -/
def encode (i : Instr) : Frame :=
  match i with
  | .nop => .cmdw 0x00000000#32
  | .lockIv => .cmdw 0x00000001#32
  | .startEnc => .cmdw 0x00000002#32
  | .startDec => .cmdw 0x00000003#32
  | .push => .cmdw 0x00000004#32
  | .finish nb => .cmdw (0x00000005#32 + BitVec.ofNat 32 (nb * 16))
  | .abort => .cmdw 0x00000006#32
  | .clear => .cmdw 0x00000007#32
  | .clrErr => .cmdw 0x00000008#32
  | .rdId => readFrame 0x00#5
  | .rdCmd => readFrame 0x01#5
  | .rdStatus => readFrame 0x02#5
  | .rdErr => readFrame 0x03#5
  | .rdIvHi => readFrame 0x04#5
  | .rdIvLo => readFrame 0x05#5
  | .rdDinHi => readFrame 0x06#5
  | .rdDinLo => readFrame 0x07#5
  | .rdDoutHi => readFrame 0x08#5
  | .rdDoutLo => readFrame 0x09#5
  | .rdChainHi => readFrame 0x0A#5
  | .rdChainLo => readFrame 0x0B#5
  | .rdBlkcnt => readFrame 0x0C#5
  | .rdRsv34 => readFrame 0x0D#5
  | .rdRsv38 => readFrame 0x0E#5
  | .rdRsv3C => readFrame 0x0F#5
  | .wrCmd v => .access 0x11#5 v
  | .wrIvHi v => .access 0x14#5 v
  | .wrIvLo v => .access 0x15#5 v
  | .wrDinHi v => .access 0x16#5 v
  | .wrDinLo v => .access 0x17#5 v
  | .wrRoId v => .access 0x10#5 v
  | .wrRoStatus v => .access 0x12#5 v
  | .wrRoErr v => .access 0x13#5 v
  | .wrRoDoutHi v => .access 0x18#5 v
  | .wrRoDoutLo v => .access 0x19#5 v
  | .wrRoChainHi v => .access 0x1A#5 v
  | .wrRoChainLo v => .access 0x1B#5 v
  | .wrRoBlkcnt v => .access 0x1C#5 v
  | .wrRo34 v => .access 0x1D#5 v
  | .wrRo38 v => .access 0x1E#5 v
  | .wrRo3C v => .access 0x1F#5 v

/-- The frame with a read's ignored write data lines at 0. -/
def Frame.canonical (f : Frame) : Frame :=
  match f with
  | .cmdw w => .cmdw w
  | .access a v => .access a (if accessWe a then v else 0)

/-! ### The opcode table's numbering -/

/-- The frame of a row of opcode_table.json (log entry 7): a 32-bit row is a command word; any other row is an access,
its descriptor in bits 4..0 of the first byte and its data word in the bits from 8 on. A first byte above 0x1F is no
descriptor. -/
def frameOfTableWord (nbits w : Nat) : Option Frame :=
  if nbits = 32 then some (.cmdw (BitVec.ofNat 32 w))
  else if w % 256 < 32 then some (.access (BitVec.ofNat 5 (w % 256)) (BitVec.ofNat 32 (w / 256)))
  else none

/-- The instruction the decoder reads from a table row's word. -/
def decodeTableWord (nbits w : Nat) : Option Instr :=
  match frameOfTableWord nbits w with
  | none => none
  | some f =>
    match decode f with
    | .ok i => some i
    | .error _ => none

end Sys2Proof
end

