-- ==== Sys2Proof/Machine/State.lean ====
section
/-! DEFINITION. The state: the block's record of R12, its input `keyReady` (R20), and the run around it (R8, R128). -/

namespace Sys2Proof.Machine

/-- The FSM state `st` (R15). -/
inductive Fsm where
  /-- No message is active. -/
  | idle
  /-- A message is active and no block is in flight. -/
  | active
  /-- A block, not the last, is in flight at the engine. -/
  | busy
  /-- The final, padded block of the message is in flight. -/
  | busyLast
  deriving DecidableEq, Repr

/-- The operation of the message (R16), and of an engine request (R39). -/
inductive Mode where
  | enc
  | dec
  deriving DecidableEq, Repr

/-- The errors of R95. -/
inductive ErrKind where
  /-- Code 1: never raised by this block (R98). -/
  | invalidInputType
  /-- Code 2 (R99). -/
  | uninitializedKey
  /-- Code 3 (R100). -/
  | noIv
  /-- Code 4 (R101). -/
  | badSequence
  /-- Code 5 (R102). -/
  | busy
  /-- Code 6 (R103). -/
  | illegalCmd
  /-- Code 7 (R104). -/
  | ivLocked
  /-- Code 8 (R105). -/
  | badWrite
  /-- Code 9 (R106). -/
  | ivIncomplete
  deriving DecidableEq, Repr

/-- A bus cycle at the host's pins, before address decoding (R32, R35): the byte address in the host's address space,
the width in bits, the direction and the write data. -/
structure BusCycle where
  addr : Nat
  width : Nat
  we : Bool
  wdata : Word32
  deriving DecidableEq, Repr

/-- One pending step from outside the block (R8; log entry 1). -/
inductive Input where
  /-- A host access in its encoded form (R45, R46). -/
  | line (f : Frame)
  /-- A host access at the pins (R32). -/
  | bus (c : BusCycle)
  /-- The host's `wait`, one step enabled outside the busy states (R47). -/
  | wait
  /-- The engine raises `eng_rsp_valid` (R39). -/
  | engineResponse
  /-- The engine drives `eng_key_ready` to `b` (R20). -/
  | keyReady (b : Bool)
  /-- The reset input `rst` (R117). -/
  | rst
  deriving DecidableEq, Repr

/-- Why the machine stops for good: never. "Errors do not stop anything" (R126, R110), so there is no constructor;
every error is recorded in ERR and the machine goes on (log entry 18). Safe. -/
inductive Fault where
  deriving DecidableEq, Repr

/-- Why a step or a meaning has no effect to give. -/
inductive Refusal where
  /-- Raised by `exec` for an instruction without a meaning; no arm does. Safe. -/
  | notModelled (mnemonic : String)
  /-- Raised by the step for a bus cycle that is not 32 bits wide: R32, "A model refuses such an access". Safe. -/
  | accessWidth (c : BusCycle)
  /-- Raised by the step for a bus cycle at an offset that is no multiple of 4: R32. Safe. -/
  | misalignedOffset (c : BusCycle)
  /-- Raised by the step for a bus cycle outside the window: R35, I6. Safe. -/
  | outsideWindow (c : BusCycle)
  /-- Raised by FINISH's meaning for a count above 7, a term that no word encodes: R46, "does not assemble". Safe. -/
  | nbOutOfRange (nb : Nat)
  deriving DecidableEq, Repr

/-- The machine. The first 17 fields are the block's record of R12, whose widths are exact. -/
structure State where
  /-- FSM state (R15). -/
  st : Fsm
  /-- Operation of the current or last message (R16). -/
  mode : Mode
  /-- Initialization vector (R17). -/
  iv : Block
  /-- IV locked for this instance (R17). -/
  ivValid : Bool
  /-- IV_HI written since the instance began (R17). -/
  ivHiW : Bool
  /-- IV_LO written since the instance began (R17). -/
  ivLoW : Bool
  /-- Chain value for the next block (R18). -/
  chain : Block
  /-- Input block staging (R19). -/
  din : Block
  /-- Result of the last completed block (R21). -/
  dout : Block
  /-- `dout` holds a result not yet superseded (R21). -/
  outValid : Bool
  /-- Blocks completed in the current or last message (R22). -/
  blkcnt : Word32
  /-- First error code since the last clear (R23, R95). -/
  errCode : BitVec 4
  /-- A further error happened while `errCode ≠ 0` (R23). -/
  errMore : Bool
  /-- Source of the recorded error: false = command, true = register write (R23). -/
  errSrc : Bool
  /-- Opcode or register offset of the recorded error (R23). -/
  errInfo : BitVec 8
  /-- Hidden: the block sent to the engine (R24). -/
  req : Block
  /-- Hidden: the raw, padded input block of the outstanding request (R24). -/
  hold : Block
  /-- The input `eng_key_ready` as the engine drives it now (R20). -/
  keyReady : Bool
  /-- The model's own: the pending steps, the next one first (R8, R36; log entry 1). -/
  inputs : List Input
  /-- The model's own: the values the host's reads returned, oldest first (R128; log entry 4). -/
  reads : List Word32
  deriving DecidableEq, Repr

/-- The machine right after reset: R29 for the block; `keyReady`, `inputs` and `reads` as log entries 2, 3 and 4 say. -/
def State.reset : State where
  st := .idle
  mode := .enc
  iv := 0
  ivValid := false
  ivHiW := false
  ivLoW := false
  chain := 0
  din := 0
  dout := 0
  outValid := false
  blkcnt := 0
  errCode := 0
  errMore := false
  errSrc := false
  errInfo := 0
  req := 0
  hold := 0
  keyReady := false
  inputs := []
  reads := []

/-- The outcome of a meaning or a step. -/
abbrev Result := Host.Outcome State Fault Refusal

end Sys2Proof.Machine
end

