-- ==== Sys2Proof/Machine/Operands.lean ====
section
/-! DEFINITION. The operand forms: the halves and bytes of a block (R10, R33), the padding of FINISH's operand (R48), and
the registers a read returns. -/

namespace Sys2Proof.Machine

/-! ### Blocks -/

/-- `L(b) = b[63:32]`, bytes 0..3: the `_HI` register and the engine's left word (R10, R33). -/
def hiWord (b : Block) : Word32 := b.extractLsb' 32 32

/-- `R(b) = b[31:0]`, bytes 4..7: the `_LO` register and the engine's right word (R10, R33). -/
def loWord (b : Block) : Word32 := b.extractLsb' 0 32

/-- `l ++ r`: the block with left word `l` and right word `r` (R9, R10). -/
def joinWords (l r : Word32) : Block := l ++ r

/-- The block with its `_HI` half replaced (R90, R92). -/
def setHi (b : Block) (v : Word32) : Block := joinWords v (loWord b)

/-- The block with its `_LO` half replaced (R91, R93). -/
def setLo (b : Block) (v : Word32) : Block := joinWords (hiWord b) v

/-- `byte(b, k) = b[63−8k : 56−8k]` for k = 0..7, in message order (R10). -/
def byteOf (b : Block) (k : Nat) : Byte := b.extractLsb' (56 - 8 * k) 8

/-- `unpack`: the eight bytes of a block in message order (R10). -/
def unpack (b : Block) : List Byte :=
  [byteOf b 0, byteOf b 1, byteOf b 2, byteOf b 3, byteOf b 4, byteOf b 5, byteOf b 6, byteOf b 7]

/-- `pack` (R10) of the first eight bytes of a list; a byte the list lacks is 0. -/
def pack (m : List Byte) : Block :=
  (m.getD 0 0 ++ m.getD 1 0 ++ m.getD 2 0 ++ m.getD 3 0 ++ m.getD 4 0 ++ m.getD 5 0 ++ m.getD 6 0 ++
    m.getD 7 0).cast rfl

/-! ### Padding -/

/-- `mask(nb) = (0xFFFFFFFFFFFFFFFF << (64 − 8 nb))[63:0]` (R48). -/
def padMask (nb : Nat) : Block := 0xFFFFFFFFFFFFFFFF#64 <<< (64 - 8 * nb)

/-- `pad(b, nb)` keeps the first `nb` bytes and sets the rest to zero (R48). -/
def pad (b : Block) (nb : Nat) : Block := b &&& padMask nb

end Sys2Proof.Machine
end

