-- ==== Sys2Proof/Machine/Flags.lean ====
section
/-! DEFINITION. The encoded fields: `st`, `mode`, the error codes, and the computed registers STATUS and ERR (R15, R16,
R26, R27, R95). -/

namespace Sys2Proof.Machine

/-- The numeric value STATUS.STATE reports (R15). -/
def Fsm.code (f : Fsm) : BitVec 2 :=
  match f with
  | .idle => 0
  | .active => 1
  | .busy => 2
  | .busyLast => 3

/-- 0 = ENC, 1 = DEC (R16); also `eng_req_op` (R39). -/
def Mode.code (m : Mode) : BitVec 1 :=
  match m with
  | .enc => 0
  | .dec => 1

/-- ERR.CODE (R95); 0 is NONE, and 10..15 name no error. -/
def ErrKind.code (k : ErrKind) : BitVec 4 :=
  match k with
  | .invalidInputType => 1
  | .uninitializedKey => 2
  | .noIv => 3
  | .badSequence => 4
  | .busy => 5
  | .illegalCmd => 6
  | .ivLocked => 7
  | .badWrite => 8
  | .ivIncomplete => 9

/-- `st ∈ {BUSY, BUSY_LAST}`: exactly then one engine request is outstanding (R24). -/
def State.isBusy (s : State) : Bool :=
  match s.st with
  | .idle | .active => false
  | .busy | .busyLast => true

/-- STATUS.ERR_PENDING (R26). -/
def State.errPending (s : State) : Bool := decide (s.errCode ≠ 0)

/-- STATUS, computed when it is read (R26). -/
def statusWord (s : State) : Word32 :=
  (BitVec.ofBool s.ivLoW ++ BitVec.ofBool s.ivHiW ++ BitVec.ofBool s.errPending ++ BitVec.ofBool s.keyReady ++
    BitVec.ofBool s.outValid ++ BitVec.ofBool s.ivValid ++ s.mode.code ++ s.st.code).setWidth 32

/-- ERR, computed when it is read (R27). -/
def errWord (s : State) : Word32 :=
  (s.errInfo ++ 0#2 ++ BitVec.ofBool s.errSrc ++ BitVec.ofBool s.errMore ++ s.errCode).setWidth 32

end Sys2Proof.Machine
end

