-- ==== Sys2Proof/Machine/Ops.lean ====
section
/-! DEFINITION. The shared operations: recording an error (R96), its return CLR_ERR (R71), the chaining datapath (R50 to
R54), message starts (R65), the IV and DIN halves (R90 to R93), CLEAR (R70), reset (R117) and the bus pins (R32). -/

namespace Sys2Proof.Machine

/-! ### Errors: the one entry action and the one return action (R110) -/

/-- `raise Err(code, src, info)`: the first error is kept, a later one sets MORE only (R96), and nothing else changes
(R97). `src` is false for a command word and true for a register write (R23). -/
def raiseErr (k : ErrKind) (src : Bool) (info : BitVec 8) (s : State) : State :=
  if s.errCode = 0 then { s with errCode := k.code, errSrc := src, errInfo := info }
  else { s with errMore := true }

/-- A refused command: the error with `src = 0` and the opcode as info (R62, R96). -/
def refuseCommand (k : ErrKind) (op : BitVec 4) (s : State) : Result :=
  .next (raiseErr k false (op.setWidth 8) s)

/-- A refused register write: the error with `src = 1` and the byte offset as info (R88, R96). -/
def refuseWrite (k : ErrKind) (off : BitVec 8) (s : State) : Result :=
  .next (raiseErr k true off s)

/-- A word that decodes to no command (R62, R103). -/
def illegalCommand (w : Word32) (s : State) : Result :=
  refuseCommand .illegalCmd (cmdOp w) s

/-- R62's BUSY check before the command's own rule. -/
def unlessBusy (op : BitVec 4) (s : State) (rule : Result) : Result :=
  if s.isBusy then refuseCommand .busy op s else rule

/-- The error state cleared and the recording re-armed (R71, R110). -/
def clearErr (s : State) : State :=
  { s with errCode := 0, errMore := false, errSrc := false, errInfo := 0 }

/-! ### The engine port -/

/-- `EngineCall(op, x)`: left word and right word in, left word and right word out (R50). -/
def engineCall (E : Engine) (op : Mode) (x : Block) : Block :=
  let y := (match op with | .enc => E.enc | .dec => E.dec) (hiWord x, loWord x)
  joinWords y.1 y.2

/-- `eng_req_valid` (R39). DESIGN CHOICE (log entry 21): a level, high for as long as a request is outstanding, which is
exactly in the busy states (R24). The spec does not say whether the signal is a level or a pulse. -/
def engReqValid (s : State) : Bool := s.isBusy

/-- `eng_req_op`: 0 = encipher, 1 = decipher (R39). DESIGN CHOICE (log entry 21): with no request outstanding, where the spec
is silent, it still shows `mode`. -/
def engReqOp (s : State) : BitVec 1 := s.mode.code

/-- `eng_req_l` (R39). DESIGN CHOICE (log entry 21): with no request outstanding it still shows `L(req)`. -/
def engReqL (s : State) : Word32 := hiWord s.req

/-- `eng_req_r` (R39). DESIGN CHOICE (log entry 21): with no request outstanding it still shows `R(req)`. -/
def engReqR (s : State) : Word32 := loWord s.req

/-! ### The chaining datapath -/

/-- The block handed to the engine: XORed with the chain value in ENC, raw in DEC (R51). -/
def requestOf (m : Mode) (b chain : Block) : Block :=
  match m with
  | .enc => b ^^^ chain
  | .dec => b

/-- `Issue(b, last)` (R51). -/
def issue (b : Block) (last : Bool) (s : State) : State :=
  { s with
    hold := b
    req := requestOf s.mode b s.chain
    outValid := false
    st := if last then .busyLast else .busy }

/-- The result of a completion: the engine's answer in ENC (R52), XORed with the chain value in DEC (R53). -/
def completionOut (E : Engine) (s : State) : Block :=
  match s.mode with
  | .enc => engineCall E .enc s.req
  | .dec => engineCall E .dec s.req ^^^ s.chain

/-- The chain value after a completion: the ciphertext produced in ENC (R52), the raw ciphertext consumed in DEC (R53). -/
def completionChain (E : Engine) (s : State) : Block :=
  match s.mode with
  | .enc => engineCall E .enc s.req
  | .dec => s.hold

/-- Where a completion leads: BUSY to ACTIVE, and BUSY_LAST to IDLE, which ends the message (R54). -/
def completionSt (f : Fsm) : Fsm :=
  match f with
  | .busy => .active
  | .idle | .active | .busyLast => .idle

/-- A completion (R52, R53, R54); enabled in the busy states only. -/
def complete (E : Engine) (s : State) : State :=
  { s with
    dout := completionOut E s
    chain := completionChain E s
    blkcnt := s.blkcnt + 1
    outValid := true
    st := completionSt s.st }

/-- `eng_rsp_valid`: the completion in a busy state (R54); disregarded in any other (R118). -/
def engineRespond (E : Engine) (s : State) : State :=
  if s.isBusy then complete E s else s

/-! ### Messages, registers, instances -/

/-- The effect of an accepted START (R65, R66). -/
def startMessage (m : Mode) (s : State) : State :=
  { s with mode := m, chain := s.iv, blkcnt := 0, outValid := false, st := .active }

/-- The message ends with no block sent (R68 with NB = 0, R69). -/
def endMessage (s : State) : State := { s with st := .idle }

/-- The IV is fixed for the instance (R64). -/
def lockIv (s : State) : State := { s with ivValid := true }

/-- IV_HI is written (R90). -/
def setIvHi (v : Word32) (s : State) : State := { s with iv := setHi s.iv v, ivHiW := true }

/-- IV_LO is written (R91). -/
def setIvLo (v : Word32) (s : State) : State := { s with iv := setLo s.iv v, ivLoW := true }

/-- DIN_HI is written (R92). -/
def setDinHi (v : Word32) (s : State) : State := { s with din := setHi s.din v }

/-- DIN_LO is written (R93). -/
def setDinLo (v : Word32) (s : State) : State := { s with din := setLo s.din v }

/-- CLEAR: every field of R12 but the four error fields at its reset value (R70). -/
def clearInstance (s : State) : State :=
  { s with
    st := .idle
    mode := .enc
    iv := 0
    ivValid := false
    ivHiW := false
    ivLoW := false
    chain := 0
    din := 0
    dout := 0
    outValid := false
    blkcnt := 0
    req := 0
    hold := 0 }

/-- Reset: every field of R12 at its value in R29; `keyReady` is not the block's (R117). -/
def resetBlock (s : State) : State := clearErr (clearInstance s)

/-! ### The run around the block -/

/-- A read returns `v` to the host and changes no state of the block (R73, R128; log entry 4). -/
def recordRead (v : Word32) (s : State) : State := { s with reads := s.reads ++ [v] }

/-- The pending steps become `rest`. -/
def setInputs (rest : List Input) (s : State) : State := { s with inputs := rest }

/-- The engine drives `eng_key_ready` (R20). -/
def setKeyReady (b : Bool) (s : State) : State := { s with keyReady := b }

/-- The access frame of a bus cycle (R32, R35, R45), or why the block has no meaning for it (log entry 10). -/
def busFrame (c : BusCycle) : Except Refusal Frame :=
  if c.addr < Config.cbcBase ∨ Config.cbcBase + Config.windowBytes ≤ c.addr then .error (.outsideWindow c)
  else if c.width ≠ 32 then .error (.accessWidth c)
  else if (c.addr - Config.cbcBase) % 4 ≠ 0 then .error (.misalignedOffset c)
  else .ok (.access (BitVec.ofBool c.we ++ BitVec.ofNat 4 ((c.addr - Config.cbcBase) / 4)) c.wdata)

end Sys2Proof.Machine
end

