-- ==== Sys2Proof/Machine/Commands.lean ====
section
/-! DEFINITION. The nine commands (R63 to R71). Each meaning makes R62's BUSY check, then its own checks in the order of
R107, and changes state only after all of them (R97). -/

namespace Sys2Proof.Machine

/-- NOP (R63): no change, in every state. -/
def execNop (s : State) : Result := .next s

/-- LOCK_IV (R64). -/
def execLockIv (s : State) : Result :=
  unlessBusy 0x1#4 s <|
    if s.ivValid then refuseCommand .ivLocked 0x1#4 s
    else if s.ivHiW && s.ivLoW then .next (lockIv s)
    else refuseCommand .ivIncomplete 0x1#4 s

/-- START_ENC and START_DEC: the checks of R65 and the start of a message in mode `m`. -/
def startCommand (m : Mode) (op : BitVec 4) (s : State) : Result :=
  unlessBusy op s <|
    if s.st = .active then refuseCommand .badSequence op s
    else if !s.ivValid then refuseCommand .noIv op s
    else if !s.keyReady then refuseCommand .uninitializedKey op s
    else .next (startMessage m s)

/-- START_ENC (R65). -/
def execStartEnc (s : State) : Result := startCommand .enc 0x2#4 s

/-- START_DEC (R66). -/
def execStartDec (s : State) : Result := startCommand .dec 0x3#4 s

/-- PUSH (R67): one full block, never padded. -/
def execPush (s : State) : Result :=
  unlessBusy 0x4#4 s <|
    if s.st = .idle then refuseCommand .badSequence 0x4#4 s
    else if !s.keyReady then refuseCommand .uninitializedKey 0x4#4 s
    else .next (issue s.din false s)

/-- FINISH NB (R68): NB = 0 ends the message and calls no engine; NB = 1..7 sends the padded last block. A count above 7
is no command (R46; log entry 11). -/
def execFinish (nb : Nat) (s : State) : Result :=
  if nbInRange nb then
    unlessBusy 0x5#4 s <|
      if s.st = .idle then refuseCommand .badSequence 0x5#4 s
      else if nb = 0 then .next (endMessage s)
      else if !s.keyReady then refuseCommand .uninitializedKey 0x5#4 s
      else .next (issue (pad s.din nb) true s)
  else .refused (.nbOutOfRange nb)

/-- ABORT (R69): ends the active message; in IDLE a no-op. -/
def execAbort (s : State) : Result :=
  unlessBusy 0x6#4 s <|
    if s.st = .active then .next (endMessage s) else .next s

/-- CLEAR (R70). -/
def execClear (s : State) : Result := unlessBusy 0x7#4 s (.next (clearInstance s))

/-- CLR_ERR (R71): accepted in every state. -/
def execClrErr (s : State) : Result := .next (clearErr s)

/-- A decoded command runs by its rule (R62). -/
def runCommand (c : Command) (s : State) : Result :=
  match c with
  | .nop => execNop s
  | .lockIv => execLockIv s
  | .startEnc => execStartEnc s
  | .startDec => execStartDec s
  | .push => execPush s
  | .finish nb => execFinish nb.toNat s
  | .abort => execAbort s
  | .clear => execClear s
  | .clrErr => execClrErr s

/-- `CmdWrite(w)` (R62): decode, then the command's rule. -/
def cmdWrite (w : Word32) (s : State) : Result :=
  match decodeCommand w with
  | none => illegalCommand w s
  | some c => runCommand c s

end Sys2Proof.Machine
end

