-- ==== Sys2Proof/Machine/Reads.lean ====
section
/-! DEFINITION. The register reads (R73 to R87): allowed in every state, without a side effect on the block. -/

namespace Sys2Proof.Machine

/-- `RegRead`: the value goes to the host (R73). -/
def hostRead (v : Word32) (s : State) : Result := .next (recordRead v s)

/-- Read ID (R74, R28). -/
def execRdId (s : State) : Result := hostRead Config.idWord s

/-- Read CMD: it is write-only and stores nothing (R75). -/
def execRdCmd (s : State) : Result := hostRead 0x00000000#32 s

/-- Read STATUS (R76). -/
def execRdStatus (s : State) : Result := hostRead (statusWord s) s

/-- Read ERR; the read does not clear it (R77). -/
def execRdErr (s : State) : Result := hostRead (errWord s) s

/-- Read IV_HI (R78). -/
def execRdIvHi (s : State) : Result := hostRead (hiWord s.iv) s

/-- Read IV_LO (R79). -/
def execRdIvLo (s : State) : Result := hostRead (loWord s.iv) s

/-- Read DIN_HI, never padded (R80). -/
def execRdDinHi (s : State) : Result := hostRead (hiWord s.din) s

/-- Read DIN_LO (R81). -/
def execRdDinLo (s : State) : Result := hostRead (loWord s.din) s

/-- Read DOUT_HI (R82). -/
def execRdDoutHi (s : State) : Result := hostRead (hiWord s.dout) s

/-- Read DOUT_LO (R83). -/
def execRdDoutLo (s : State) : Result := hostRead (loWord s.dout) s

/-- Read CHAIN_HI (R84). -/
def execRdChainHi (s : State) : Result := hostRead (hiWord s.chain) s

/-- Read CHAIN_LO (R85). -/
def execRdChainLo (s : State) : Result := hostRead (loWord s.chain) s

/-- Read BLKCNT (R86). -/
def execRdBlkcnt (s : State) : Result := hostRead s.blkcnt s

/-- Read the reserved offset 0x34 (R87). -/
def execRdRsv34 (s : State) : Result := hostRead 0x00000000#32 s

/-- Read the reserved offset 0x38 (R87). -/
def execRdRsv38 (s : State) : Result := hostRead 0x00000000#32 s

/-- Read the reserved offset 0x3C (R87). -/
def execRdRsv3C (s : State) : Result := hostRead 0x00000000#32 s

end Sys2Proof.Machine
end

