-- ==== Sys2Proof/Machine/Writes.lean ====
section
/-! DEFINITION. The register writes (R88 to R94). -/

namespace Sys2Proof.Machine

/-- Write CMD (R89): `CmdWrite(v)`. -/
def execWrCmd (v : Word32) (s : State) : Result := cmdWrite v s

/-- Write IV_HI (R90). -/
def execWrIvHi (v : Word32) (s : State) : Result :=
  if s.ivValid then refuseWrite .ivLocked 0x10#8 s else .next (setIvHi v s)

/-- Write IV_LO (R91). -/
def execWrIvLo (v : Word32) (s : State) : Result :=
  if s.ivValid then refuseWrite .ivLocked 0x14#8 s else .next (setIvLo v s)

/-- Write DIN_HI (R92): allowed in every state. -/
def execWrDinHi (v : Word32) (s : State) : Result := .next (setDinHi v s)

/-- Write DIN_LO (R93): allowed in every state. -/
def execWrDinLo (v : Word32) (s : State) : Result := .next (setDinLo v s)

/-- A write to a read-only or reserved offset: BAD_WRITE, and the value is discarded (R94). -/
def badWrite (off : BitVec 8) (_v : Word32) (s : State) : Result := refuseWrite .badWrite off s

/-- Write ID (R94). -/
def execWrRoId (v : Word32) (s : State) : Result := badWrite 0x00#8 v s

/-- Write STATUS (R94). -/
def execWrRoStatus (v : Word32) (s : State) : Result := badWrite 0x08#8 v s

/-- Write ERR, which it does not clear (R94). -/
def execWrRoErr (v : Word32) (s : State) : Result := badWrite 0x0C#8 v s

/-- Write DOUT_HI (R94). -/
def execWrRoDoutHi (v : Word32) (s : State) : Result := badWrite 0x20#8 v s

/-- Write DOUT_LO (R94). -/
def execWrRoDoutLo (v : Word32) (s : State) : Result := badWrite 0x24#8 v s

/-- Write CHAIN_HI (R94). -/
def execWrRoChainHi (v : Word32) (s : State) : Result := badWrite 0x28#8 v s

/-- Write CHAIN_LO (R94). -/
def execWrRoChainLo (v : Word32) (s : State) : Result := badWrite 0x2C#8 v s

/-- Write BLKCNT (R94). -/
def execWrRoBlkcnt (v : Word32) (s : State) : Result := badWrite 0x30#8 v s

/-- Write the reserved offset 0x34 (R94). -/
def execWrRo34 (v : Word32) (s : State) : Result := badWrite 0x34#8 v s

/-- Write the reserved offset 0x38 (R94). -/
def execWrRo38 (v : Word32) (s : State) : Result := badWrite 0x38#8 v s

/-- Write the reserved offset 0x3C (R94). -/
def execWrRo3C (v : Word32) (s : State) : Result := badWrite 0x3C#8 v s

end Sys2Proof.Machine
end

