-- ==== Sys2Proof/Machine/Dispatch.lean ====
section
/-! DEFINITION. The dispatch: one arm for each constructor of `Instr`. -/

namespace Sys2Proof.Machine

def exec (i : Instr) (s : State) : Host.Outcome State Fault Refusal :=
  match i with
  | .nop => Sys2Proof.Machine.execNop s
  | .lockIv => Sys2Proof.Machine.execLockIv s
  | .startEnc => Sys2Proof.Machine.execStartEnc s
  | .startDec => Sys2Proof.Machine.execStartDec s
  | .push => Sys2Proof.Machine.execPush s
  | .finish nb => Sys2Proof.Machine.execFinish nb s
  | .abort => Sys2Proof.Machine.execAbort s
  | .clear => Sys2Proof.Machine.execClear s
  | .clrErr => Sys2Proof.Machine.execClrErr s
  | .rdId => Sys2Proof.Machine.execRdId s
  | .rdCmd => Sys2Proof.Machine.execRdCmd s
  | .rdStatus => Sys2Proof.Machine.execRdStatus s
  | .rdErr => Sys2Proof.Machine.execRdErr s
  | .rdIvHi => Sys2Proof.Machine.execRdIvHi s
  | .rdIvLo => Sys2Proof.Machine.execRdIvLo s
  | .rdDinHi => Sys2Proof.Machine.execRdDinHi s
  | .rdDinLo => Sys2Proof.Machine.execRdDinLo s
  | .rdDoutHi => Sys2Proof.Machine.execRdDoutHi s
  | .rdDoutLo => Sys2Proof.Machine.execRdDoutLo s
  | .rdChainHi => Sys2Proof.Machine.execRdChainHi s
  | .rdChainLo => Sys2Proof.Machine.execRdChainLo s
  | .rdBlkcnt => Sys2Proof.Machine.execRdBlkcnt s
  | .rdRsv34 => Sys2Proof.Machine.execRdRsv34 s
  | .rdRsv38 => Sys2Proof.Machine.execRdRsv38 s
  | .rdRsv3C => Sys2Proof.Machine.execRdRsv3C s
  | .wrCmd v => Sys2Proof.Machine.execWrCmd v s
  | .wrIvHi v => Sys2Proof.Machine.execWrIvHi v s
  | .wrIvLo v => Sys2Proof.Machine.execWrIvLo v s
  | .wrDinHi v => Sys2Proof.Machine.execWrDinHi v s
  | .wrDinLo v => Sys2Proof.Machine.execWrDinLo v s
  | .wrRoId v => Sys2Proof.Machine.execWrRoId v s
  | .wrRoStatus v => Sys2Proof.Machine.execWrRoStatus v s
  | .wrRoErr v => Sys2Proof.Machine.execWrRoErr v s
  | .wrRoDoutHi v => Sys2Proof.Machine.execWrRoDoutHi v s
  | .wrRoDoutLo v => Sys2Proof.Machine.execWrRoDoutLo v s
  | .wrRoChainHi v => Sys2Proof.Machine.execWrRoChainHi v s
  | .wrRoChainLo v => Sys2Proof.Machine.execWrRoChainLo v s
  | .wrRoBlkcnt v => Sys2Proof.Machine.execWrRoBlkcnt v s
  | .wrRo34 v => Sys2Proof.Machine.execWrRo34 v s
  | .wrRo38 v => Sys2Proof.Machine.execWrRo38 v s
  | .wrRo3C v => Sys2Proof.Machine.execWrRo3C v s

end Sys2Proof.Machine
end

