-- ==== Sys2Proof/Machine/Agents.lean ====
section
/-! DEFINITION. What each agent of R8 does in its step: the host's line, bus cycle and `wait`, the engine, the
environment and the reset input; and the step of a block that nothing from outside reaches. -/

namespace Sys2Proof.Machine

/-- The host performs one encoded line (R45, R46). An illegal command word takes its error here (R62, R103). -/
def hostLine (f : Frame) (s : State) : Result :=
  match decode f with
  | .ok i => exec i s
  | .error (.illegalCommand w) => illegalCommand w s

/-- The host's bus cycle: the access its pins encode, or a refusal (R32, R35). -/
def hostBus (c : BusCycle) (s : State) : Result :=
  match busFrame c with
  | .ok f => hostLine f s
  | .error r => .refused r

/-- The frame of a host access, performed as a line or at the pins (R32, R45); the other steps have none. -/
def Input.hostFrame (x : Input) : Option Frame :=
  match x with
  | .line f => some f
  | .bus c =>
    match busFrame c with
    | .ok f => some f
    | .error _ => none
  | .wait | .engineResponse | .keyReady _ | .rst => none

/-- The host's `wait`, with `rest` after it (R47; log entry 6): outside the busy states it reads STATUS and is done; in
them it stays pending while the outstanding completion happens, which R54's fairness promises. -/
def hostWait (E : Engine) (rest : List Input) (s : State) : Result :=
  if s.isBusy then .next (complete E s)
  else .next (recordRead (statusWord s) (setInputs rest s))

/-- No step is pending: a busy block takes the remaining completion (R54, R128), any other waits for the host
(R116, R119; log entry 5). -/
def idleStep (E : Engine) (s : State) : Result := .next (engineRespond E s)

/-- The next pending step `x`, with `rest` after it (R8). -/
def takeInput (E : Engine) (x : Input) (rest : List Input) (s : State) : Result :=
  match x with
  | .line f => hostLine f (setInputs rest s)
  | .bus c => hostBus c (setInputs rest s)
  | .wait => hostWait E rest s
  | .engineResponse => .next (engineRespond E (setInputs rest s))
  | .keyReady b => .next (setKeyReady b (setInputs rest s))
  | .rst => .next (resetBlock (setInputs rest s))

/-- The order in which the events of one hardware cycle take effect (R108): reset beats every other event, and a
completion is applied before an access (log entry 15). -/
def cycleInputs (rst response : Bool) (access : Option Frame) : List Input :=
  if rst then [.rst]
  else (if response then [Input.engineResponse] else []) ++ (access.toList.map Input.line)

end Sys2Proof.Machine
end

