-- ==== Sys2Proof/Machine/Step.lean ====
section
/-! DEFINITION. One step (R8), and where the next instruction is taken from. -/

namespace Sys2Proof.Machine

/-- One step with engine `E`: the first pending step, or the block's own when none is pending. -/
def stepWith (E : Engine) (s : State) : Host.Outcome State Fault Refusal :=
  match s.inputs with
  | [] => idleStep E s
  | x :: rest => takeInput E x rest s

/-- One step of the machine, with the engine that Config leaves open (R7). -/
def step (s : State) : Host.Outcome State Fault Refusal := stepWith Config.engine s

/-- `n` steps with engine `E`; it stops at the first refusal. -/
def runWith (E : Engine) (n : Nat) (s : State) : Host.Outcome State Fault Refusal :=
  match n with
  | 0 => .next s
  | k + 1 =>
    match stepWith E s with
    | .next t => runWith E k t
    | .fault r => .fault r
    | .refused r => .refused r

/-- `s` with a row's instruction as the host's next line (log entry 2); a first byte that is no descriptor places
nothing. -/
def State.withFetchWord (s : State) (nbits w : Nat) : State :=
  match frameOfTableWord nbits w with
  | some f => { s with inputs := .line f :: s.inputs }
  | none => s

end Sys2Proof.Machine
end

