-- ==== Sys2Proof/Machine/Script.lean ====
section
/-! DEFINITION. The host's programs: the lines and pseudo-instructions of R46 and R47 as pending steps, and the way a
message is presented (R49). -/

namespace Sys2Proof.Machine

/-! ### Lines (R46, R47) -/

/-- One line of a host program. `nb = none` is `cmd FINISH` with no count (R46). `endMsg` is the pseudo-instruction
`end`. -/
inductive ScriptLine where
  | wr (reg : String) (imm : Nat)
  | rd (reg : String)
  | cmd (op : String) (nb : Option Nat)
  | setiv (hi lo : Nat)
  | wait
  | block (hi lo : Nat)
  | last (nb hi lo : Nat)
  | endMsg
  | encmsg
  | decmsg
  | clrerr
  deriving DecidableEq, Repr

/-- The register names of R25 with their word index; a reserved slot has no name there and is written as its offset
(R87's example; log entry 17). -/
def registerNames : List (String × BitVec 4) :=
  [("ID", 0x0), ("CMD", 0x1), ("STATUS", 0x2), ("ERR", 0x3), ("IV_HI", 0x4), ("IV_LO", 0x5), ("DIN_HI", 0x6),
    ("DIN_LO", 0x7)] ++
  [("DOUT_HI", 0x8), ("DOUT_LO", 0x9), ("CHAIN_HI", 0xA), ("CHAIN_LO", 0xB), ("BLKCNT", 0xC), ("0x34", 0xD),
    ("0x38", 0xE), ("0x3C", 0xF)]

/-- The mnemonics of R42; FINISH takes its count from the line. -/
def commandNames : List (String × Command) :=
  [("NOP", .nop), ("LOCK_IV", .lockIv), ("START_ENC", .startEnc), ("START_DEC", .startDec), ("PUSH", .push)] ++
  [("FINISH", .finish 0), ("ABORT", .abort), ("CLEAR", .clear), ("CLR_ERR", .clrErr)]

/-- A register name is read without regard to case (R46). -/
def foldCase (name : String) : List Char := name.toList.map Char.toUpper

/-- The word index a register name stands for; an unknown name has none (R46). -/
def registerIndex (name : String) : Option (BitVec 4) :=
  (registerNames.find? (fun p => foldCase p.1 == foldCase name)).map Prod.snd

/-- The host performs instruction `i` as its next line. -/
def lineOf (i : Instr) : Input := .line (encode i)

/-- `wr REG, imm` (R46): descriptor `0x10 | idx`. -/
def assembleWr (reg : String) (imm : Nat) : Option (List Input) :=
  match registerIndex reg with
  | none => none
  | some idx => if imm < 2 ^ 32 then some [.line (.access (1#1 ++ idx) (BitVec.ofNat 32 imm))] else none

/-- `rd REG` (R46). -/
def assembleRd (reg : String) : Option (List Input) :=
  match registerIndex reg with
  | none => none
  | some idx => some [.line (.access (0#1 ++ idx) 0)]

/-- `cmd OP` and `cmd FINISH nb` (R46): an unknown mnemonic, a count outside 0..7, and a count for another command do
not assemble. -/
def assembleCmd (op : String) (nb : Option Nat) : Option (List Input) :=
  match (commandNames.find? (fun p => p.1 == op)).map Prod.snd with
  | none => none
  | some (.finish _) => if nbInRange (nb.getD 0) then some [lineOf (.finish (nb.getD 0))] else none
  | some c => if nb = none then some [lineOf c.toInstr] else none

/-- A list of lines that must all assemble. -/
def assembleAll (parts : List (Option (List Input))) : Option (List Input) :=
  match parts with
  | [] => some []
  | none :: _ => none
  | some xs :: rest => (assembleAll rest).map (xs ++ ·)

/-- A line's pending steps, or `none` when it does not assemble (R46, R47). -/
def assemble (l : ScriptLine) : Option (List Input) :=
  match l with
  | .wr reg imm => assembleWr reg imm
  | .rd reg => assembleRd reg
  | .cmd op nb => assembleCmd op nb
  | .setiv hi lo => assembleAll [assembleWr "IV_HI" hi, assembleWr "IV_LO" lo, assembleCmd "LOCK_IV" none]
  | .wait => some [.wait]
  | .block hi lo =>
    assembleAll
      [assembleWr "DIN_HI" hi, assembleWr "DIN_LO" lo, assembleCmd "PUSH" none, some [.wait], assembleRd "DOUT_HI",
        assembleRd "DOUT_LO"]
  | .last nb hi lo =>
    if nb = 0 then none
    else
      assembleAll
        [assembleWr "DIN_HI" hi, assembleWr "DIN_LO" lo, assembleCmd "FINISH" (some nb), some [.wait],
          assembleRd "DOUT_HI", assembleRd "DOUT_LO"]
  | .endMsg => assembleCmd "FINISH" (some 0)
  | .encmsg => assembleCmd "START_ENC" none
  | .decmsg => assembleCmd "START_DEC" none
  | .clrerr => assembleCmd "CLR_ERR" none

/-- A host program's pending steps (R128). -/
def assembleProgram (ls : List ScriptLine) : Option (List Input) := assembleAll (ls.map assemble)

/-! ### Messages (R49) -/

/-- A message as a host presents it: the full blocks, then `nb` bytes more, which stand in the first `nb` byte positions
of `last` (R49). Each block carries whether the engine answers before the host first polls (R36). -/
structure Message where
  full : List (Block × Bool)
  nb : Nat
  last : Block
  lastEarly : Bool
  deriving DecidableEq, Repr

/-- The padded message P' as blocks (R49, R55). -/
def Message.blocks (m : Message) : List Block :=
  m.full.map Prod.fst ++ if m.nb = 0 then [] else [pad m.last m.nb]

/-- The first `n` blocks of a byte sequence. -/
def fullBlocks (n : Nat) (bytes : List Byte) : List Block :=
  match n with
  | 0 => []
  | k + 1 => pack (bytes.take 8) :: fullBlocks k (bytes.drop 8)

/-- A byte sequence split as R49 says, every answer coming while the host polls. -/
def Message.ofBytes (bytes : List Byte) : Message where
  full := (fullBlocks (bytes.length / 8) bytes).map (fun b => (b, false))
  nb := bytes.length % 8
  last := pack (bytes.drop (8 * (bytes.length / 8)))
  lastEarly := false

/-- The pseudo-instructions `block` and `last` (R47) with `send` = PUSH or FINISH: stage the block, send it, wait, read the
result. If `early`, the engine answers before the first poll. -/
def sendBlock (send : Instr) (b : Block) (early : Bool) : List Input :=
  [lineOf (.wrDinHi (hiWord b)), lineOf (.wrDinLo (loWord b)), lineOf send] ++
    (if early then [.engineResponse] else []) ++ [.wait, lineOf .rdDoutHi, lineOf .rdDoutLo]

/-- The START of a message in mode `m` (R65, R66). -/
def startInstr (m : Mode) : Instr :=
  match m with
  | .enc => .startEnc
  | .dec => .startDec

/-- The end of a message: `last` if a partial block is left, else `end` (R47, R49). -/
def finishInputs (msg : Message) : List Input :=
  if msg.nb = 0 then [lineOf (.finish 0)] else sendBlock (.finish msg.nb) msg.last msg.lastEarly

/-- A whole message (R47, R49). -/
def messageInputs (m : Mode) (msg : Message) : List Input :=
  lineOf (startInstr m) :: (msg.full.flatMap (fun p => sendBlock .push p.1 p.2) ++ finishInputs msg)

/-- How many steps the inputs of a message take: each block takes seven, whenever the engine answers. -/
def messageSteps (msg : Message) : Nat := 1 + 7 * msg.full.length + if msg.nb = 0 then 1 else 7

end Sys2Proof.Machine
end

