-- ==== Sys2Proof/Safety.lean ====
section
/-! DEFINITION. The terms claims use: the invariants of R30, the end of a run (R128), and what CBC computes on blocks
(R55, R56). -/

namespace Sys2Proof.Machine

/-- The invariants of R30 that one state shows, with the two that R24, R48 and R51 give the block in flight, and the shape
of ERR.INFO that R23 gives. R30(c) holds by construction: the outstanding request is `st` itself (`engReqValid`). -/
structure Invariants (s : State) : Prop where
  /-- R30(a). -/
  activeHasIv : s.st ≠ .idle → s.ivValid = true
  /-- R30(b). -/
  lockedHasHalves : s.ivValid = true → s.ivHiW = true ∧ s.ivLoW = true
  /-- The outstanding request is made of the block in flight and the chain value (R24, R51). -/
  requestIsIssued : s.isBusy = true → s.req = requestOf s.mode s.hold s.chain
  /-- The last block of a message was padded, so its last byte is zero (R48, R68). -/
  lastIsPadded : s.st = .busyLast → byteOf s.hold 7 = 0
  /-- R30(e). -/
  noErrorNoFields : s.errCode = 0 → s.errMore = false ∧ s.errSrc = false ∧ s.errInfo = 0
  /-- R30(f). -/
  onlyRaisedCodes : s.errCode ≠ 1 ∧ s.errCode.toNat < 10
  /-- ERR.INFO is an opcode when SRC = 0 and a register offset when SRC = 1 (R23, R27). -/
  infoFitsSource : if s.errSrc then s.errInfo.toNat < 64 ∧ s.errInfo.toNat % 4 = 0 else s.errInfo.toNat < 16

/-- A run has ended: the host's last line is done and no block is in flight (R128). -/
def Ended (s : State) : Prop := s.inputs = [] ∧ s.isBusy = false

/-- A bus cycle that the block decodes: 32 bits wide, at a multiple of 4 inside the window (R32, R35). -/
structure BusCycle.Legal (c : BusCycle) : Prop where
  width : c.width = 32
  aligned : (c.addr - Config.cbcBase) % 4 = 0
  atBase : Config.cbcBase ≤ c.addr
  inWindow : c.addr < Config.cbcBase + 64

/-- START_ENC and START_DEC succeed: IDLE, an IV locked, a key ready (R120). -/
structure Ready (s : State) : Prop where
  idle : s.st = .idle
  ivLocked : s.ivValid = true
  keyReady : s.keyReady = true

/-- `C_i = Enc(P_i ^ C_(i−1))` from the chain value `c` on (R52, R55). -/
def cbcEncrypt (E : Engine) (c : Block) (ps : List Block) : List Block :=
  match ps with
  | [] => []
  | p :: rest => engineCall E .enc (p ^^^ c) :: cbcEncrypt E (engineCall E .enc (p ^^^ c)) rest

/-- `P_i = Dec(C_i) ^ C_(i−1)` from the chain value `c` on (R53, R56). -/
def cbcDecrypt (E : Engine) (c : Block) (cs : List Block) : List Block :=
  match cs with
  | [] => []
  | x :: rest => (engineCall E .dec x ^^^ c) :: cbcDecrypt E x rest

/-- The output blocks of a message in mode `m` (R55, R56). -/
def cbcOut (E : Engine) (m : Mode) (iv : Block) (bs : List Block) : List Block :=
  match m with
  | .enc => cbcEncrypt E iv bs
  | .dec => cbcDecrypt E iv bs

/-- The chain value after the message (R18, R55): its last ciphertext block, or the IV of an empty message. -/
def cbcChain (E : Engine) (m : Mode) (iv : Block) (bs : List Block) : Block :=
  match m with
  | .enc => (cbcEncrypt E iv bs).getLastD iv
  | .dec => bs.getLastD iv

/-- What a host reads for one block: STATUS at the end of its `wait`, then DOUT_HI and DOUT_LO (R47). -/
def blockReads (status : Word32) (out : Block) : List Word32 := [status, hiWord out, loWord out]

/-- STATUS after a completion of a message in mode `m` that leads to `f`, the other flags as in `s` (R26, R54). -/
def doneStatus (m : Mode) (f : Fsm) (s : State) : Word32 := statusWord { s with mode := m, st := f, outValid := true }

/-- What a host reads over a whole message: every full block ends in ACTIVE, a padded last block in IDLE. -/
def messageReads (E : Engine) (m : Mode) (msg : Message) (s : State) : List Word32 :=
  let outs := cbcOut E m s.iv msg.blocks
  (outs.take msg.full.length).flatMap (blockReads (doneStatus m .active s)) ++
    (outs.drop msg.full.length).flatMap (blockReads (doneStatus m .idle s))

/-- An input that is no command, no CLEAR, no reset, and one step long: what R37 allows between its steps (b) and (c). -/
def Input.quiet (x : Input) : Bool :=
  match x with
  | .line (.access a _) => a != 0x11#5
  | .engineResponse | .keyReady _ => true
  | .line (.cmdw _) | .bus _ | .wait | .rst => false

end Sys2Proof.Machine
end

