-- ==== Sys2Proof/Certificates/Slice0/Obligations.lean ====
section
/-! DEFINITION. The statements for the provers, from the numbered rules of spec/. Reads are stated through the model's list
of values read (log entry 4); steps are stated for every engine. -/

open Sys2Proof Sys2Proof.Machine

/-- Decoding the encoding of a well-formed instruction gives it back. Derived from 30_encoding.md sections 1 and 2, R40,
R42, R45. -/
def Obligations.DecodeOfEncode : Prop :=
  ∀ i : Instr, i.wf = true → decode (encode i) = .ok i

/-- A frame that decodes is the encoding of its instruction, and the instruction is well-formed. Derived from
30_encoding.md sections 1 and 2, R42, R45. -/
def Obligations.EncodeOfDecode : Prop :=
  ∀ (f : Frame) (i : Instr), decode f = .ok i → i.wf = true ∧ encode i = f.canonical

/-- Words written out from the opcode map decode to their commands. Derived from 30_encoding.md section 1, the opcode map. -/
def Obligations.SpecCommandWordsDecode : Prop :=
  decode (.cmdw 0x00000000#32) = .ok .nop ∧ decode (.cmdw 0x00000001#32) = .ok .lockIv ∧
  decode (.cmdw 0x00000002#32) = .ok .startEnc ∧ decode (.cmdw 0x00000003#32) = .ok .startDec ∧
  decode (.cmdw 0x00000004#32) = .ok .push ∧ decode (.cmdw 0x00000005#32) = .ok (.finish 0) ∧
  decode (.cmdw 0x00000025#32) = .ok (.finish 2) ∧ decode (.cmdw 0x00000075#32) = .ok (.finish 7) ∧
  decode (.cmdw 0x00000006#32) = .ok .abort ∧ decode (.cmdw 0x00000007#32) = .ok .clear ∧
  decode (.cmdw 0x00000008#32) = .ok .clrErr ∧
  decode (.cmdw 0x00000009#32) = .error (.illegalCommand 0x00000009#32) ∧
  decode (.cmdw 0x00000010#32) = .error (.illegalCommand 0x00000010#32) ∧
  decode (.cmdw 0x00000085#32) = .error (.illegalCommand 0x00000085#32)

/-- Every descriptor of the access table decodes to its read or write. Derived from 30_encoding.md section 2, the
descriptor table. -/
def Obligations.SpecDescriptorsDecode : Prop :=
  ∀ v : Word32,
    [0x00#5, 0x01#5, 0x02#5, 0x03#5, 0x04#5, 0x05#5, 0x06#5, 0x07#5].map (fun a => decode (.access a v)) =
      [.ok .rdId, .ok .rdCmd, .ok .rdStatus, .ok .rdErr, .ok .rdIvHi, .ok .rdIvLo, .ok .rdDinHi, .ok .rdDinLo] ∧
    [0x08#5, 0x09#5, 0x0A#5, 0x0B#5, 0x0C#5, 0x0D#5, 0x0E#5, 0x0F#5].map (fun a => decode (.access a v)) =
      [.ok .rdDoutHi, .ok .rdDoutLo, .ok .rdChainHi, .ok .rdChainLo, .ok .rdBlkcnt, .ok .rdRsv34, .ok .rdRsv38,
        .ok .rdRsv3C] ∧
    [0x10#5, 0x11#5, 0x12#5, 0x13#5, 0x14#5, 0x15#5, 0x16#5, 0x17#5].map (fun a => decode (.access a v)) =
      [.ok (.wrRoId v), .ok (.wrCmd v), .ok (.wrRoStatus v), .ok (.wrRoErr v), .ok (.wrIvHi v), .ok (.wrIvLo v),
        .ok (.wrDinHi v), .ok (.wrDinLo v)] ∧
    [0x18#5, 0x19#5, 0x1A#5, 0x1B#5, 0x1C#5, 0x1D#5, 0x1E#5, 0x1F#5].map (fun a => decode (.access a v)) =
      [.ok (.wrRoDoutHi v), .ok (.wrRoDoutLo v), .ok (.wrRoChainHi v), .ok (.wrRoChainLo v), .ok (.wrRoBlkcnt v),
        .ok (.wrRo34 v), .ok (.wrRo38 v), .ok (.wrRo3C v)]

/-- Exactly sixteen words decode to a command. Derived from 30_encoding.md section 1 (the spec's own inference in R42). -/
def Obligations.ExactlySixteenCommandWords : Prop :=
  ∀ w : Word32,
    (∃ c, decodeCommand w = some c) ↔
      w ∈ [0x0#32, 0x1#32, 0x2#32, 0x3#32, 0x4#32, 0x6#32, 0x7#32, 0x8#32] ++
        [0x05#32, 0x15#32, 0x25#32, 0x35#32, 0x45#32, 0x55#32, 0x65#32, 0x75#32]

/-- A word with OP in 0x9..0xF or a reserved bit set is refused with ILLEGAL_CMD and INFO = w[3:0]. States R43, R103. -/
def Obligations.IllegalWordsAreRefused : Prop :=
  ∀ w : Word32,
    (decode (.cmdw w) = .error (.illegalCommand w) ↔
      9 ≤ (w.extractLsb' 0 4).toNat ∨ (w.extractLsb' 0 4 = 5#4 ∧ w.extractLsb' 7 25 ≠ 0) ∨
        (w.extractLsb' 0 4 ≠ 5#4 ∧ w.extractLsb' 4 28 ≠ 0)) ∧
    (decode (.cmdw w) = .error (.illegalCommand w) → ∀ s : State,
      exec (.wrCmd w) s = .next (raiseErr .illegalCmd false ((w.extractLsb' 0 4).setWidth 8) s) ∧
      hostLine (.cmdw w) s = .next (raiseErr .illegalCmd false ((w.extractLsb' 0 4).setWidth 8) s))

/-- A step at a host line runs the instruction the line decodes to. Derived from 00_scope.md section 5, 20_memory.md
section 5, 42_register_access.md. -/
def Obligations.StepRunsTheDecodedLine : Prop :=
  (∀ (s : State) (f : Frame) (rest : List Input) (i : Instr), s.inputs = .line f :: rest → decode f = .ok i →
    (∀ E : Engine, stepWith E s = exec i { s with inputs := rest }) ∧ step s = exec i { s with inputs := rest }) ∧
  ∀ (nbits w : Nat) (i : Instr) (s : State), decodeTableWord nbits w = some i →
    step (s.withFetchWord nbits w) = exec i s

/-- A 32-bit bus cycle at CBC_BASE + 4 idx is the access with descriptor we ++ idx. Derived from 20_memory.md sections 1
and 4, 30_encoding.md section 2. -/
def Obligations.BusCycleIsItsAccess : Prop :=
  ∀ (E : Engine) (s : State) (rest : List Input) (idx : BitVec 4) (we : Bool) (v : Word32),
    s.inputs = .bus { addr := Config.cbcBase + 4 * idx.toNat, width := 32, we := we, wdata := v } :: rest →
    stepWith E s = stepWith E { s with inputs := .line (.access (BitVec.ofBool we ++ idx) v) :: rest }

/-- A step is refused exactly at a bus cycle of another width, off alignment or outside the window. Derived from
20_memory.md section 1, 20_memory.md section 4, 70_reset_and_hazards.md section 3. -/
def Obligations.OnlyBadBusCyclesAreRefused : Prop :=
  (∀ (E : Engine) (s : State) (c : BusCycle) (rest : List Input), s.inputs = .bus c :: rest →
    (c.width ≠ 32 ∨ (c.addr - Config.cbcBase) % 4 ≠ 0 ∨ c.addr < Config.cbcBase ∨ Config.cbcBase + 64 ≤ c.addr) →
    ∃ r, stepWith E s = .refused r) ∧
  ∀ (E : Engine) (s : State),
    (∀ c rest, s.inputs = .bus c :: rest →
      c.width = 32 ∧ (c.addr - Config.cbcBase) % 4 = 0 ∧ Config.cbcBase ≤ c.addr ∧ c.addr < Config.cbcBase + 64) →
    ∃ t, stepWith E s = .next t

/-- A completion in ENC mode puts Enc of the request into DOUT and CHAIN. Derived from R50, R52, R54, 40_chaining.md
sections 2 and 4, 70_reset_and_hazards.md section 5. The completion comes at an engine response (log entry 1), with no
step pending (log entry 5), or at a wait, which stays pending (log entry 6): the last two are the model's form of "the
model takes the remaining completion step first" (R128) and of R47. -/
def Obligations.EncCompletion : Prop :=
  ∀ (E : Engine) (s : State) (rest : List Input), s.mode = .enc →
    (s.inputs = .engineResponse :: rest ∨ (s.inputs = [] ∧ rest = []) ∨
      ((∃ more, s.inputs = .wait :: more) ∧ rest = s.inputs)) →
    (s.st = .busy ∨ s.st = .busyLast) →
    stepWith E s = .next { s with
      inputs := rest
      dout := (E.enc (s.req.extractLsb' 32 32, s.req.extractLsb' 0 32)).1 ++
        (E.enc (s.req.extractLsb' 32 32, s.req.extractLsb' 0 32)).2
      chain := (E.enc (s.req.extractLsb' 32 32, s.req.extractLsb' 0 32)).1 ++
        (E.enc (s.req.extractLsb' 32 32, s.req.extractLsb' 0 32)).2
      blkcnt := s.blkcnt + 1
      outValid := true
      st := if s.st = .busy then .active else .idle }

/-- A completion in DEC mode puts Dec of the request XOR CHAIN into DOUT, and the raw ciphertext into CHAIN. Derived from
R50, R53, R54, 40_chaining.md sections 2 and 4, 70_reset_and_hazards.md section 5. The completion comes at an engine
response (log entry 1), with no step pending (log entry 5), or at a wait, which stays pending (log entry 6): the last
two are the model's form of "the model takes the remaining completion step first" (R128) and of R47. -/
def Obligations.DecCompletion : Prop :=
  ∀ (E : Engine) (s : State) (rest : List Input), s.mode = .dec →
    (s.inputs = .engineResponse :: rest ∨ (s.inputs = [] ∧ rest = []) ∨
      ((∃ more, s.inputs = .wait :: more) ∧ rest = s.inputs)) →
    (s.st = .busy ∨ s.st = .busyLast) →
    stepWith E s = .next { s with
      inputs := rest
      dout := ((E.dec (s.req.extractLsb' 32 32, s.req.extractLsb' 0 32)).1 ++
        (E.dec (s.req.extractLsb' 32 32, s.req.extractLsb' 0 32)).2) ^^^ s.chain
      chain := s.hold
      blkcnt := s.blkcnt + 1
      outValid := true
      st := if s.st = .busy then .active else .idle }

/-- Reset sets every field of the block to its reset value, from any state; in one cycle it beats all, and a completion
comes before an access. Derived from R117, 70_reset_and_hazards.md section 1, 60_exceptions.md section 3. The clauses
on cycleInputs are the model's form of R108's order (log entry 15; no step uses it), and the pending steps and the
values read that a reset keeps are log entries 2 and 4. -/
def Obligations.ResetSetsEveryField : Prop :=
  (∀ (E : Engine) (s : State) (rest : List Input), s.inputs = .rst :: rest →
    stepWith E s = .next
      { st := .idle, mode := .enc, iv := 0, ivValid := false, ivHiW := false, ivLoW := false, chain := 0, din := 0,
        dout := 0, outValid := false, blkcnt := 0, errCode := 0, errMore := false, errSrc := false, errInfo := 0,
        req := 0, hold := 0, keyReady := s.keyReady, inputs := rest, reads := s.reads }) ∧
  (∀ (response : Bool) (access : Option Frame), cycleInputs true response access = [.rst]) ∧
  (∀ f : Frame, cycleInputs false true (some f) = [.engineResponse, .line f]) ∧
  cycleInputs false true none = [.engineResponse] ∧
  (∀ f : Frame, cycleInputs false false (some f) = [.line f]) ∧
  cycleInputs false false none = [] ∧
  ∀ (E : Engine) (s : State) (f : Frame) (rest : List Input), s.inputs = cycleInputs false true (some f) ++ rest →
    (s.st = .busy ∨ s.st = .busyLast) →
    runWith E 2 s = hostLine f (complete E { s with inputs := rest })

/-- The machine right after reset holds the spec's reset values, and STATUS then reads keyReady << 5. Derived from
10_state.md section 4, R29. The values of keyReady, inputs and reads in State.reset are the model's choice (log
entries 2, 3 and 4) and are left open here. -/
def Obligations.ResetStateIsTheSpecs : Prop :=
  State.reset =
    { st := .idle, mode := .enc, iv := 0x0000000000000000#64, ivValid := false, ivHiW := false, ivLoW := false,
      chain := 0x0000000000000000#64, din := 0x0000000000000000#64, dout := 0x0000000000000000#64,
      outValid := false, blkcnt := 0#32, errCode := 0#4, errMore := false, errSrc := false, errInfo := 0#8,
      req := 0x0000000000000000#64, hold := 0x0000000000000000#64, keyReady := State.reset.keyReady,
      inputs := State.reset.inputs, reads := State.reset.reads } ∧
  (∀ k : Bool, exec .rdStatus { State.reset with keyReady := k } =
    .next { State.reset with
      keyReady := k
      reads := State.reset.reads ++ [(BitVec.ofBool k).setWidth 32 <<< 5] }) ∧
  ∀ s : State,
    resetBlock s = { State.reset with keyReady := s.keyReady, inputs := s.inputs, reads := s.reads } ∧
    exec .rdStatus (resetBlock s) =
      .next { resetBlock s with reads := s.reads ++ [(BitVec.ofBool s.keyReady).setWidth 32 <<< 5] }

/-- A reset cancels the block in flight, and a response outside the busy states is ignored. Derived from R118,
70_reset_and_hazards.md section 1. The pending steps and the values read that a reset keeps are the model's choice
(log entries 2 and 4). -/
def Obligations.ResetCancelsTheOutstandingRequest : Prop :=
  (∀ (E : Engine) (s : State) (rest : List Input), s.inputs = .engineResponse :: rest →
    (s.st = .idle ∨ s.st = .active) → stepWith E s = .next { s with inputs := rest }) ∧
  ∀ (E : Engine) (s : State) (rest : List Input), s.inputs = .rst :: .engineResponse :: rest →
    runWith E 2 s = .next { State.reset with keyReady := s.keyReady, inputs := rest, reads := s.reads }

/-- An environment step changes keyReady and nothing else. Derived from 10_state.md section 2 (keyReady), 00_scope.md
section 5. -/
def Obligations.KeyReadyFollowsTheEngine : Prop :=
  ∀ (E : Engine) (s : State) (rest : List Input) (b : Bool), s.inputs = .keyReady b :: rest →
    stepWith E s = .next { s with inputs := rest, keyReady := b }

/-- wait is one step that reads STATUS outside the busy states; in them the completion comes first. Derived from
30_encoding.md section 3, 40_chaining.md section 4. -/
def Obligations.WaitReadsStatusOutsideTheBusyStates : Prop :=
  ∀ (E : Engine) (s : State) (rest : List Input), s.inputs = .wait :: rest →
    ((s.st = .idle ∨ s.st = .active) →
      stepWith E s = .next { s with inputs := rest, reads := s.reads ++ [statusWord s] }) ∧
    ((s.st = .busy ∨ s.st = .busyLast) →
      stepWith E s = .next (complete E s) ∧
      runWith E 2 s =
        .next { complete E s with inputs := rest, reads := s.reads ++ [statusWord (complete E s)] })

/-- Every run ends: its last line is done, the last completion happens, and nothing changes after that. Derived from
70_reset_and_hazards.md section 5, 40_chaining.md section 4. It rests on the model's own steps: a busy block with
nothing pending completes (log entry 5), and wait is one step that takes the outstanding completion first (log entry
6). -/
def Obligations.EveryRunEnds : Prop :=
  ∀ (E : Engine) (s : State), (∀ c : BusCycle, .bus c ∈ s.inputs → c.Legal) →
    ∃ (n : Nat) (u t : State), n ≤ 2 * s.inputs.length ∧ runWith E n s = .next u ∧ u.inputs = [] ∧
      runWith E (n + 1) s = .next t ∧ Ended t ∧
      ((u.st = .busy ∨ u.st = .busyLast) → t = complete E u) ∧
      ((u.st = .idle ∨ u.st = .active) → t = u) ∧
      ∀ m : Nat, runWith E m t = .next t

/-- NOP changes nothing, in every state. States R63. -/
def Obligations.NopChangesNothing : Prop :=
  ∀ s : State, exec .nop s = .next s

/-- LOCK_IV sets iv_valid, or records BUSY, IV_LOCKED or IV_INCOMPLETE, in that order. States R64. -/
def Obligations.LockIvLocksAWrittenIv : Prop :=
  ∀ s : State, exec .lockIv s = .next (
    if s.st = .busy ∨ s.st = .busyLast then raiseErr .busy false 0x01#8 s
    else if s.ivValid = true then raiseErr .ivLocked false 0x01#8 s
    else if s.ivHiW = false ∨ s.ivLoW = false then raiseErr .ivIncomplete false 0x01#8 s
    else { s with ivValid := true })

/-- START_ENC loads CHAIN from the IV, clears BLKCNT and OUT_VALID and goes ACTIVE, or records its error. States R65. -/
def Obligations.StartEncBeginsAMessage : Prop :=
  ∀ s : State, exec .startEnc s = .next (
    if s.st = .busy ∨ s.st = .busyLast then raiseErr .busy false 0x02#8 s
    else if s.st = .active then raiseErr .badSequence false 0x02#8 s
    else if s.ivValid = false then raiseErr .noIv false 0x02#8 s
    else if s.keyReady = false then raiseErr .uninitializedKey false 0x02#8 s
    else { s with mode := .enc, chain := s.iv, blkcnt := 0, outValid := false, st := .active })

/-- START_DEC loads CHAIN from the IV, clears BLKCNT and OUT_VALID and goes ACTIVE, or records its error. States R66. -/
def Obligations.StartDecBeginsAMessage : Prop :=
  ∀ s : State, exec .startDec s = .next (
    if s.st = .busy ∨ s.st = .busyLast then raiseErr .busy false 0x03#8 s
    else if s.st = .active then raiseErr .badSequence false 0x03#8 s
    else if s.ivValid = false then raiseErr .noIv false 0x03#8 s
    else if s.keyReady = false then raiseErr .uninitializedKey false 0x03#8 s
    else { s with mode := .dec, chain := s.iv, blkcnt := 0, outValid := false, st := .active })

/-- PUSH issues DIN unpadded, or records its error. States R67. -/
def Obligations.PushIssuesTheStagedBlock : Prop :=
  ∀ s : State, exec .push s = .next (
    if s.st = .busy ∨ s.st = .busyLast then raiseErr .busy false 0x04#8 s
    else if s.st = .idle then raiseErr .badSequence false 0x04#8 s
    else if s.keyReady = false then raiseErr .uninitializedKey false 0x04#8 s
    else { s with
      hold := s.din
      req := if s.mode = .enc then s.din ^^^ s.chain else s.din
      outValid := false
      st := .busy })

/-- FINISH ends the message, first sending the zero-padded tail when NB > 0, or records its error. States R68. -/
def Obligations.FinishEndsTheMessage : Prop :=
  ∀ (nb : Nat) (s : State), nb < 8 → exec (.finish nb) s = .next (
    if s.st = .busy ∨ s.st = .busyLast then raiseErr .busy false 0x05#8 s
    else if s.st = .idle then raiseErr .badSequence false 0x05#8 s
    else if nb = 0 then { s with st := .idle }
    else if s.keyReady = false then raiseErr .uninitializedKey false 0x05#8 s
    else { s with
      hold := s.din &&& (0xFFFFFFFFFFFFFFFF#64 <<< (64 - 8 * nb))
      req := if s.mode = .enc then (s.din &&& (0xFFFFFFFFFFFFFFFF#64 <<< (64 - 8 * nb))) ^^^ s.chain
        else s.din &&& (0xFFFFFFFFFFFFFFFF#64 <<< (64 - 8 * nb))
      outValid := false
      st := .busyLast })

/-- A FINISH count above 7 does not assemble and is no instruction. Derived from 30_encoding.md section 3. -/
def Obligations.CountAboveSevenDoesNotAssemble : Prop :=
  ∀ nb : Nat, 7 < nb →
    assemble (.cmd "FINISH" (some nb)) = none ∧ (Instr.finish nb).wf = false ∧
    ∀ s : State, exec (.finish nb) s = .refused (.nbOutOfRange nb)

/-- ABORT goes from ACTIVE to IDLE, is a no-op in IDLE, and is refused in the busy states. States R69. -/
def Obligations.AbortEndsTheActiveMessage : Prop :=
  ∀ s : State, exec .abort s = .next (
    if s.st = .busy ∨ s.st = .busyLast then raiseErr .busy false 0x06#8 s
    else if s.st = .active then { s with st := .idle }
    else s)

/-- CLEAR resets every field but the four error fields, and is refused in the busy states; only it and reset unlock an IV.
States R70. -/
def Obligations.ClearEndsTheCipherInstance : Prop :=
  (∀ s : State, exec .clear s = .next (
    if s.st = .busy ∨ s.st = .busyLast then raiseErr .busy false 0x07#8 s
    else
      { st := .idle, mode := .enc, iv := 0, ivValid := false, ivHiW := false, ivLoW := false, chain := 0, din := 0,
        dout := 0, outValid := false, blkcnt := 0, errCode := s.errCode, errMore := s.errMore, errSrc := s.errSrc,
        errInfo := s.errInfo, req := 0, hold := 0, keyReady := s.keyReady, inputs := s.inputs,
        reads := s.reads })) ∧
  ∀ (i : Instr) (s t : State), i ≠ .clear → (∀ w, i = .wrCmd w → w ≠ 0x7#32) → s.ivValid = true →
    exec i s = .next t → t.iv = s.iv ∧ t.ivValid = true

/-- CLR_ERR zeroes the four error fields and nothing else, in every state. States R71. -/
def Obligations.ClrErrClearsOnlyTheErrorState : Prop :=
  ∀ s : State, exec .clrErr s =
    .next { s with errCode := 0, errMore := false, errSrc := false, errInfo := 0 }

/-- A write to CMD decodes the word, then checks BUSY, then runs the command. States R62, R89. -/
def Obligations.WriteCmdPerformsTheCommand : Prop :=
  (∀ (w : Word32) (s : State),
    (decodeCommand w = none →
      exec (.wrCmd w) s = .next (raiseErr .illegalCmd false ((w.extractLsb' 0 4).setWidth 8) s)) ∧
    (∀ c, decodeCommand w = some c →
      exec (.wrCmd w) s = exec c.toInstr s ∧ (∃ t, exec (.wrCmd w) s = .next t) ∧
      (c ≠ .nop → c ≠ .clrErr → s.st = .busy ∨ s.st = .busyLast →
        exec (.wrCmd w) s = .next (raiseErr .busy false ((w.extractLsb' 0 4).setWidth 8) s)))) ∧
  (∀ s : State, exec (.wrCmd 0x0#32) s = .next s ∧
    exec (.wrCmd 0x8#32) s = .next { s with errCode := 0, errMore := false, errSrc := false, errInfo := 0 }) ∧
  ∀ s : State, s.st = .active → s.keyReady = true →
    exec (.wrCmd 0x4#32) s = .next { s with
      hold := s.din
      req := if s.mode = .enc then s.din ^^^ s.chain else s.din
      outValid := false
      st := .busy }

/-- Recording an error keeps the first and marks later ones with MORE; every refusal leaves ERR.CODE nonzero. States R96. -/
def Obligations.FirstErrorIsKept : Prop :=
  (∀ (k : ErrKind) (src : Bool) (info : BitVec 8) (s : State),
    (s.errCode = 0 → raiseErr k src info s = { s with errCode := k.code, errSrc := src, errInfo := info }) ∧
    (s.errCode ≠ 0 → raiseErr k src info s = { s with errMore := true }) ∧
    (raiseErr k src info s).errCode ≠ 0) ∧
  [ErrKind.invalidInputType, .uninitializedKey, .noIv, .badSequence, .busy, .illegalCmd, .ivLocked, .badWrite,
    .ivIncomplete].map ErrKind.code = [1#4, 2#4, 3#4, 4#4, 5#4, 6#4, 7#4, 8#4, 9#4]

/-- A refused command or write changes no state other than by the error recording. Derived from 60_exceptions.md section
1. -/
def Obligations.RefusalsArePrecise : Prop :=
  ∀ (i : Instr) (s t : State), exec i (clearErr s) = .next t → t.errCode ≠ 0 →
    exec i s = .next (
      if s.errCode = 0 then { s with errCode := t.errCode, errSrc := t.errSrc, errInfo := t.errInfo }
      else { s with errMore := true })

/-- UNINITIALIZED_KEY with src 0 and info = opcode: START past its other checks, PUSH and FINISH NB > 0 in ACTIVE, without
a key. States R99. -/
def Obligations.KeyAbsentIsRefused : Prop :=
  ∀ s : State, s.keyReady = false →
    (s.st = .idle → s.ivValid = true →
      exec .startEnc s = .next (raiseErr .uninitializedKey false 0x02#8 s) ∧
      exec .startDec s = .next (raiseErr .uninitializedKey false 0x03#8 s)) ∧
    (s.st = .active →
      exec .push s = .next (raiseErr .uninitializedKey false 0x04#8 s) ∧
      ∀ nb, 0 < nb → nb < 8 → exec (.finish nb) s = .next (raiseErr .uninitializedKey false 0x05#8 s))

/-- NO_IV: START in IDLE without a locked IV, whatever keyReady is. States R100. -/
def Obligations.MissingIvIsRefused : Prop :=
  ∀ s : State, s.st = .idle → s.ivValid = false →
    exec .startEnc s = .next (raiseErr .noIv false 0x02#8 s) ∧
    exec .startDec s = .next (raiseErr .noIv false 0x03#8 s)

/-- BAD_SEQUENCE: START in ACTIVE, PUSH and FINISH with any NB in IDLE. States R101. -/
def Obligations.OutOfSequenceIsRefused : Prop :=
  ∀ s : State,
    (s.st = .active →
      exec .startEnc s = .next (raiseErr .badSequence false 0x02#8 s) ∧
      exec .startDec s = .next (raiseErr .badSequence false 0x03#8 s)) ∧
    (s.st = .idle →
      exec .push s = .next (raiseErr .badSequence false 0x04#8 s) ∧
      ∀ nb, nb < 8 → exec (.finish nb) s = .next (raiseErr .badSequence false 0x05#8 s))

/-- BUSY: every command but NOP and CLR_ERR in a busy state, as a command line and as a write to CMD. States R102. -/
def Obligations.BusyRefusesAllButNopAndClrErr : Prop :=
  ∀ (c : Command) (s : State), c ≠ .nop → c ≠ .clrErr → (s.st = .busy ∨ s.st = .busyLast) →
    exec c.toInstr s = .next (raiseErr .busy false (((encodeCommand c).extractLsb' 0 4).setWidth 8) s) ∧
    exec (.wrCmd (encodeCommand c)) s =
      .next (raiseErr .busy false (((encodeCommand c).extractLsb' 0 4).setWidth 8) s)

/-- IV_LOCKED: LOCK_IV and IV writes while locked; IV_INCOMPLETE: LOCK_IV while unlocked with a half unwritten. States
R104, R106. -/
def Obligations.LockedOrIncompleteIvIsRefused : Prop :=
  ∀ s : State,
    (s.ivValid = true → (s.st = .idle ∨ s.st = .active) →
      exec .lockIv s = .next (raiseErr .ivLocked false 0x01#8 s)) ∧
    (s.ivValid = true → ∀ v, exec (.wrIvHi v) s = .next (raiseErr .ivLocked true 0x10#8 s) ∧
      exec (.wrIvLo v) s = .next (raiseErr .ivLocked true 0x14#8 s)) ∧
    (s.ivValid = false → (s.ivHiW = false ∨ s.ivLoW = false) → (s.st = .idle ∨ s.st = .active) →
      exec .lockIv s = .next (raiseErr .ivIncomplete false 0x01#8 s))

/-- RD_STATUS returns the nine flag bits, zero-extended, and changes nothing else. States R76. -/
def Obligations.StatusReadsTheFlags : Prop :=
  ∀ s : State, exec .rdStatus s = .next { s with reads := s.reads ++
    [(BitVec.ofBool s.ivLoW ++ BitVec.ofBool s.ivHiW ++ BitVec.ofBool (decide (s.errCode ≠ 0)) ++
      BitVec.ofBool s.keyReady ++ BitVec.ofBool s.outValid ++ BitVec.ofBool s.ivValid ++
      (match s.mode with | .enc => 0#1 | .dec => 1#1) ++
      (match s.st with | .idle => 0#2 | .active => 1#2 | .busy => 2#2 | .busyLast => 3#2)).setWidth 32] }

/-- RD_ERR returns INFO, SRC, MORE and CODE, and changes nothing else. States R77. -/
def Obligations.ErrReadsTheErrorFields : Prop :=
  ∀ s : State, exec .rdErr s = .next { s with reads := s.reads ++
    [(s.errInfo ++ 0#2 ++ BitVec.ofBool s.errSrc ++ BitVec.ofBool s.errMore ++ s.errCode).setWidth 32] }

/-- The reads of IV, DIN, DOUT, CHAIN and BLKCNT return the halves of their registers, in every state. States R78, R79,
R80, R81, R82, R83, R84, R85, R86. -/
def Obligations.DataRegistersReadTheirHalves : Prop :=
  ∀ s : State,
    exec .rdIvHi s = .next { s with reads := s.reads ++ [s.iv.extractLsb' 32 32] } ∧
    exec .rdIvLo s = .next { s with reads := s.reads ++ [s.iv.extractLsb' 0 32] } ∧
    exec .rdDinHi s = .next { s with reads := s.reads ++ [s.din.extractLsb' 32 32] } ∧
    exec .rdDinLo s = .next { s with reads := s.reads ++ [s.din.extractLsb' 0 32] } ∧
    exec .rdDoutHi s = .next { s with reads := s.reads ++ [s.dout.extractLsb' 32 32] } ∧
    exec .rdDoutLo s = .next { s with reads := s.reads ++ [s.dout.extractLsb' 0 32] } ∧
    exec .rdChainHi s = .next { s with reads := s.reads ++ [s.chain.extractLsb' 32 32] } ∧
    exec .rdChainLo s = .next { s with reads := s.reads ++ [s.chain.extractLsb' 0 32] } ∧
    exec .rdBlkcnt s = .next { s with reads := s.reads ++ [s.blkcnt] }

/-- RD_ID returns 0x43424331; RD_CMD and the three reserved offsets return 0. States R74, R75, R87. -/
def Obligations.ConstantRegistersRead : Prop :=
  ∀ s : State,
    exec .rdId s = .next { s with reads := s.reads ++ [0x43424331#32] } ∧
    exec .rdCmd s = .next { s with reads := s.reads ++ [0#32] } ∧
    exec .rdRsv34 s = .next { s with reads := s.reads ++ [0#32] } ∧
    exec .rdRsv38 s = .next { s with reads := s.reads ++ [0#32] } ∧
    exec .rdRsv3C s = .next { s with reads := s.reads ++ [0#32] }

/-- A write to IV_HI or IV_LO sets its half and its written-flag while the IV is unlocked. States R90, R91. -/
def Obligations.IvWritesSetTheirHalf : Prop :=
  ∀ (v : Word32) (s : State),
    exec (.wrIvHi v) s = .next (
      if s.ivValid = true then raiseErr .ivLocked true 0x10#8 s
      else { s with iv := v ++ s.iv.extractLsb' 0 32, ivHiW := true }) ∧
    exec (.wrIvLo v) s = .next (
      if s.ivValid = true then raiseErr .ivLocked true 0x14#8 s
      else { s with iv := s.iv.extractLsb' 32 32 ++ v, ivLoW := true })

/-- A write to DIN_HI or DIN_LO sets its half, in every state, and nothing else. States R92, R93. -/
def Obligations.DinWritesSetTheirHalf : Prop :=
  ∀ (v : Word32) (s : State),
    exec (.wrDinHi v) s = .next { s with din := v ++ s.din.extractLsb' 0 32 } ∧
    exec (.wrDinLo v) s = .next { s with din := s.din.extractLsb' 32 32 ++ v }

/-- BAD_WRITE with src 1 and info = offset: a write to each of the 11 read-only and reserved offsets. States R94, R105. -/
def Obligations.BadWritesAreRefused : Prop :=
  ∀ (v : Word32) (s : State),
    [Instr.wrRoId v, .wrRoStatus v, .wrRoErr v, .wrRoDoutHi v, .wrRoDoutLo v, .wrRoChainHi v, .wrRoChainLo v,
      .wrRoBlkcnt v, .wrRo34 v, .wrRo38 v, .wrRo3C v].map (fun i => exec i s) =
    [0x00#8, 0x08#8, 0x0C#8, 0x20#8, 0x24#8, 0x28#8, 0x2C#8, 0x30#8, 0x34#8, 0x38#8, 0x3C#8].map
      (fun off => .next (raiseErr .badWrite true off s))

/-- The FSM moves as the transition table says, and no read, other write or refused command moves it. Derived from
41_commands.md section 3 (the spec's own inference in R72). -/
def Obligations.FsmTransitions : Prop :=
  (∀ (c : Command) (s t : State), exec c.toInstr s = .next t →
    t.st = (match s.st, c with
      | .idle, .startEnc => if s.ivValid && s.keyReady then .active else .idle
      | .idle, .startDec => if s.ivValid && s.keyReady then .active else .idle
      | .active, .push => if s.keyReady then .busy else .active
      | .active, .finish nb => if nb = 0 then .idle else if s.keyReady then .busyLast else .active
      | .active, .abort => .idle
      | .active, .clear => .idle
      | f, _ => f)) ∧
  ∀ (i : Instr) (s t : State), (∀ c : Command, i ≠ c.toInstr) → (∀ w, i ≠ .wrCmd w) → exec i s = .next t →
    t.st = s.st

/-- CHAIN, DOUT, DIN and IV change only by the instructions the spec names. Derived from 10_state.md section 1,
10_state.md section 2. -/
def Obligations.DataRegistersHaveOnlyTheirWriters : Prop :=
  ∀ (i : Instr) (s t : State), exec i s = .next t →
    (t.chain ≠ s.chain → i ∈ [.startEnc, .startDec, .clear, .wrCmd 0x2#32, .wrCmd 0x3#32, .wrCmd 0x7#32]) ∧
    (t.dout ≠ s.dout → i ∈ [.clear, .wrCmd 0x7#32]) ∧
    (t.din ≠ s.din → i ∈ [.clear, .wrCmd 0x7#32] ∨ ∃ v, i = .wrDinHi v ∨ i = .wrDinLo v) ∧
    (t.iv ≠ s.iv → i ∈ [.clear, .wrCmd 0x7#32] ∨ ∃ v, i = .wrIvHi v ∨ i = .wrIvLo v)

/-- No host access changes the block in flight. Derived from 10_state.md section 2 (din), 70_reset_and_hazards.md section
3, 41_commands.md section 1. -/
def Obligations.BlockInFlightIsUntouchable : Prop :=
  ∀ (i : Instr) (s t : State), (s.st = .busy ∨ s.st = .busyLast) → exec i s = .next t →
    t.st = s.st ∧ t.mode = s.mode ∧ t.chain = s.chain ∧ t.req = s.req ∧ t.hold = s.hold ∧ t.dout = s.dout ∧
      t.outValid = s.outValid ∧ t.blkcnt = s.blkcnt

/-- A locked IV stays locked and unchanged over every step but CLEAR outside the busy states and reset, which unlock and
zero it. Derived from 10_state.md section 2 (iv), 70_reset_and_hazards.md section 3, R70, R117. -/
def Obligations.LockedIvIsImmutable : Prop :=
  ∀ (E : Engine) (s t : State), s.ivValid = true → stepWith E s = .next t →
    (t.ivValid = true ∧ t.iv = s.iv) ∨
      (t.ivValid = false ∧ t.iv = 0 ∧ t.st = .idle ∧
        ∃ (x : Input) (rest : List Input), s.inputs = x :: rest ∧
          (x = .rst ∨
            ((s.st = .idle ∨ s.st = .active) ∧
              (x.hostFrame = some (.cmdw 0x7#32) ∨ x.hostFrame = some (.access 0x11#5 0x7#32)))))

/-- Outside the busy states req and hold influence nothing. Derived from 10_state.md section 2 (req and hold). -/
def Obligations.HiddenStateIsUnobservable : Prop :=
  ∀ (E : Engine) (s t : State) (r h : Block), (s.st = .idle ∨ s.st = .active) → stepWith E s = .next t →
    ∃ t', stepWith E { s with req := r, hold := h } = .next t' ∧
      { t' with req := t.req, hold := t.hold } = t ∧ ((t.st = .busy ∨ t.st = .busyLast) → t' = t)

/-- The invariants hold right after reset. Derived from 10_state.md section 5 (the spec's own inference in R30). -/
def Obligations.ResetMeetsTheInvariants : Prop :=
  Invariants State.reset

/-- Every step keeps the invariants: IV locked in a message, request made of block and chain, ERR fields consistent, codes
1 and 10..15 never. Derived from 10_state.md section 5 (the spec's own inference in R30), 10_state.md section 2. -/
def Obligations.EveryStepKeepsTheInvariants : Prop :=
  (∀ (E : Engine) (s t : State), Invariants s → stepWith E s = .next t → Invariants t) ∧
  ∀ s t : State, Invariants s → step s = .next t → Invariants t

/-- OUT_VALID = 1 with BLKCNT = 0 arises only by the counter's wrap. Derived from 10_state.md section 5 (the spec's own
inference in R30). -/
def Obligations.ValidOutputWasCounted : Prop :=
  ∀ (E : Engine) (s t : State), stepWith E s = .next t → t.outValid = true → t.blkcnt = 0 →
    (s.outValid = true ∧ s.blkcnt = 0) ∨
      ((s.st = .busy ∨ s.st = .busyLast) ∧ s.blkcnt = 0xFFFFFFFF#32)

/-- A host that polls STATUS without an error between finds the result of its block in DOUT. Derived from 20_memory.md
section 5 (the spec's own inference in R37). -/
def Obligations.StatusPollingSynchronises : Prop :=
  ∀ (E : Engine) (s t : State) (send : Instr) (b : Block) (evs rest : List Input), s.errCode = 0 →
    ((send = .push ∧ b = s.din) ∨ ∃ nb, 0 < nb ∧ nb < 8 ∧ send = .finish nb ∧ b = pad s.din nb) →
    s.inputs = lineOf send :: (evs ++ rest) → (∀ x ∈ evs, Input.quiet x = true) →
    runWith E (1 + evs.length) s = .next t → t.errCode = 0 → (t.st = .idle ∨ t.st = .active) →
    s.st = .active ∧ t.inputs = rest ∧ t.outValid = true ∧ t.blkcnt = s.blkcnt + 1 ∧
      t.dout = (match s.mode with
        | .enc => engineCall E .enc (b ^^^ s.chain)
        | .dec => engineCall E .dec b ^^^ s.chain)

/-- pad keeps bytes 0..NB-1 in message order and zeroes the rest. States R48. -/
def Obligations.PadKeepsTheFirstBytes : Prop :=
  ∀ b : Block,
    (∀ nb, nb < 8 → pad b nb = b &&& (0xFFFFFFFFFFFFFFFF#64 <<< (64 - 8 * nb)) ∧
      ∀ k, k < 8 → byteOf (pad b nb) k = if k < nb then byteOf b k else 0) ∧
    pad b 0 = 0 ∧ pad b 8 = b

/-- Block bytes are big-endian in the two words, and pack inverts unpack. Derived from 00_scope.md section 6, 20_memory.md
section 2. -/
def Obligations.BytesAreBigEndian : Prop :=
  (∀ b : Block, pack (unpack b) = b ∧
    hiWord b = (byteOf b 0 ++ byteOf b 1 ++ byteOf b 2 ++ byteOf b 3).cast rfl ∧
    loWord b = (byteOf b 4 ++ byteOf b 5 ++ byteOf b 6 ++ byteOf b 7).cast rfl) ∧
  ∀ m : List Byte, m.length = 8 → unpack (pack m) = m

/-- A byte message is len div 8 full blocks and NB = len mod 8; its blocks hold its bytes, then zeros up to a multiple of
eight. Derived from 40_chaining.md section 1 (the spec's own inference in R49). -/
def Obligations.PaddedBlocksHoldThePaddedBytes : Prop :=
  ∀ bytes : List Byte,
    (Message.ofBytes bytes).nb = bytes.length % 8 ∧
    (Message.ofBytes bytes).full.length = bytes.length / 8 ∧
    (Message.ofBytes bytes).blocks.length = (bytes.length + 7) / 8 ∧
    (Message.ofBytes bytes).blocks.flatMap unpack =
      bytes ++ List.replicate ((8 - bytes.length % 8) % 8) 0#8

/-- A message presented to START_ENC reads back as its CBC encryption. Derived from 40_chaining.md section 5 (the spec's
own inference in R55), 40_chaining.md sections 1 to 4. The STATUS values among the reads are the last polls of the
waits, which the model records (log entries 4 and 6). -/
def Obligations.EncryptsAMessage : Prop :=
  ∀ (E : Engine) (msg : Message) (s : State) (rest : List Input), msg.nb < 8 → Ready s →
    s.inputs = messageInputs .enc msg ++ rest →
    ∃ t, runWith E (messageSteps msg) s = .next t ∧ t.inputs = rest ∧
      t.reads = s.reads ++ messageReads E .enc msg s ∧
      t.st = .idle ∧ t.mode = .enc ∧ t.blkcnt = BitVec.ofNat 32 msg.blocks.length ∧
      t.chain = (cbcEncrypt E s.iv msg.blocks).getLastD s.iv ∧
      t.dout = (cbcEncrypt E s.iv msg.blocks).getLastD s.dout ∧
      t.outValid = decide (msg.blocks ≠ []) ∧ t.iv = s.iv ∧ t.ivValid = true ∧ t.keyReady = true ∧
      t.errCode = s.errCode ∧ t.errMore = s.errMore ∧ t.errSrc = s.errSrc ∧ t.errInfo = s.errInfo

/-- A message presented to START_DEC reads back as its CBC decryption. Derived from 40_chaining.md section 5 (the spec's
own inference in R56), 40_chaining.md sections 1 to 4. The STATUS values among the reads are the last polls of the
waits, which the model records (log entries 4 and 6). -/
def Obligations.DecryptsAMessage : Prop :=
  ∀ (E : Engine) (msg : Message) (s : State) (rest : List Input), msg.nb < 8 → Ready s →
    s.inputs = messageInputs .dec msg ++ rest →
    ∃ t, runWith E (messageSteps msg) s = .next t ∧ t.inputs = rest ∧
      t.reads = s.reads ++ messageReads E .dec msg s ∧
      t.st = .idle ∧ t.mode = .dec ∧ t.blkcnt = BitVec.ofNat 32 msg.blocks.length ∧
      t.chain = msg.blocks.getLastD s.iv ∧
      t.dout = (cbcDecrypt E s.iv msg.blocks).getLastD s.dout ∧
      t.outValid = decide (msg.blocks ≠ []) ∧ t.iv = s.iv ∧ t.ivValid = true ∧ t.keyReady = true ∧
      t.errCode = s.errCode ∧ t.errMore = s.errMore ∧ t.errSrc = s.errSrc ∧ t.errInfo = s.errInfo

/-- Decrypting what encryption returned gives back the zero-padded message. Derived from 40_chaining.md section 5 (the
spec's own inference in R57). The STATUS values among the reads are the last polls of the waits, which the model
records (log entries 4 and 6). -/
def Obligations.DecryptionInvertsEncryption : Prop :=
  ∀ (E : Engine) (msg back : Message) (s : State) (rest : List Input), E.InverseLaw → msg.nb < 8 → Ready s →
    back.nb = 0 → back.full.map Prod.fst = cbcEncrypt E s.iv msg.blocks →
    s.inputs = messageInputs .enc msg ++ messageInputs .dec back ++ rest →
    ∃ t, runWith E (messageSteps msg + messageSteps back) s = .next t ∧ t.inputs = rest ∧ t.st = .idle ∧
      t.reads = s.reads ++ messageReads E .enc msg s ++
        msg.blocks.flatMap (blockReads (doneStatus .dec .active s))

/-- Flipping bits of ciphertext block k flips the same bits of plaintext block k + 1 and no other block after or before.
Derived from 40_chaining.md section 5 (the spec's own inference in R58). The STATUS values among the reads are the
last polls of the waits, which the model records (log entries 4 and 6). -/
def Obligations.CiphertextBitFlip : Prop :=
  ∀ (E : Engine) (s s' : State) (msg : Message) (k : Nat) (c mask : Block) (early : Bool), Ready s → msg.nb = 0 →
    msg.full[k]? = some (c, early) → k + 1 < msg.full.length →
    s.inputs = messageInputs .dec msg →
    s' = { s with inputs := messageInputs .dec { msg with full := msg.full.set k (c ^^^ mask, early) } } →
    ∃ (t t' : State) (P P' : List Block),
      runWith E (messageSteps msg) s = .next t ∧ runWith E (messageSteps msg) s' = .next t' ∧
      t.reads = s.reads ++ P.flatMap (blockReads (doneStatus .dec .active s)) ∧
      t'.reads = s.reads ++ P'.flatMap (blockReads (doneStatus .dec .active s)) ∧
      P.length = msg.full.length ∧ P'.length = msg.full.length ∧
      P'[k + 1]? = (P[k + 1]?).map (· ^^^ mask) ∧
      P'[k]? = some (engineCall E .dec (c ^^^ mask) ^^^
        (if k = 0 then s.iv else (msg.full.map Prod.fst).getD (k - 1) 0)) ∧
      ∀ j, j ≠ k → j ≠ k + 1 → P'[j]? = P[j]?

/-- START then FINISH 0 sends no block and produces no output. Derived from 40_chaining.md section 5 (the spec's own
inference in R59). -/
def Obligations.EmptyMessageSendsNothing : Prop :=
  ∀ (E : Engine) (m : Mode) (s : State) (rest : List Input), Ready s →
    s.inputs = lineOf (startInstr m) :: lineOf (.finish 0) :: rest →
    runWith E 2 s = .next
      { s with mode := m, chain := s.iv, blkcnt := 0, outValid := false, st := .idle, inputs := rest }

/-- A message and the message with its zero padding appended give the same output blocks. Derived from 40_chaining.md
section 5 (the spec's own inference in R60). The STATUS values among the reads are the last polls of the waits, which
the model records (log entries 4 and 6). -/
def Obligations.PaddingIsAppliedOnce : Prop :=
  ∀ (E : Engine) (m : Mode) (msg : Message) (early : Bool) (s s' : State), Ready s → 0 < msg.nb → msg.nb < 8 →
    s.inputs = messageInputs m msg →
    s' = { s with inputs := messageInputs m ⟨msg.full ++ [(pad msg.last msg.nb, early)], 0, 0, false⟩ } →
    ∃ (t t' : State) (outs : List Block) (out : Block),
      runWith E (messageSteps msg) s = .next t ∧ runWith E (messageSteps msg + 1) s' = .next t' ∧
      t.reads = s.reads ++ outs.flatMap (blockReads (doneStatus m .active s)) ++
        blockReads (doneStatus m .idle s) out ∧
      t'.reads = s.reads ++ outs.flatMap (blockReads (doneStatus m .active s)) ++
        blockReads (doneStatus m .active s) out ∧
      t'.chain = t.chain ∧ t'.blkcnt = t.blkcnt ∧ t'.st = .idle ∧ t.st = .idle
end

