-- ==== Sys2Proof/Laws/Operands.lean ====
section
/-! SUPPORT. The halves of a block. -/

namespace Sys2Proof.Machine

@[simp] theorem hiWord_joinWords (l r : Word32) : hiWord (joinWords l r) = l := by
  apply BitVec.eq_of_getLsbD_eq
  intro i hi
  have h := BitVec.getLsbD_append (x := l) (y := r) (i := 32 + i)
  have h2 : ¬ (32 + i < 32) := by omega
  simp only [h2, if_false, Nat.add_sub_cancel_left] at h
  simpa [hiWord, joinWords, hi] using h

@[simp] theorem loWord_joinWords (l r : Word32) : loWord (joinWords l r) = r := by
  apply BitVec.eq_of_getLsbD_eq
  intro i hi
  have h := BitVec.getLsbD_append (x := l) (y := r) (i := i)
  simpa [loWord, joinWords, hi] using h

@[simp] theorem joinWords_hiWord_loWord (b : Block) : joinWords (hiWord b) (loWord b) = b := by
  apply BitVec.eq_of_getLsbD_eq
  intro i hi
  refine (BitVec.getLsbD_append (x := hiWord b) (y := loWord b) (i := i)).trans ?_
  by_cases h : i < 32
  · simp [h, loWord]
  · have h' : 32 + (i - 32) = i := by omega
    have h2 : i - 32 < 32 := by omega
    simp [h, hiWord, h', h2]

/-- Writing both halves leaves exactly the block written, whatever was there. -/
@[simp] theorem setLo_setHi (b : Block) (l r : Word32) : setLo (setHi b l) r = joinWords l r := by
  simp [setLo, setHi]

end Sys2Proof.Machine
end

