-- ==== Sys2Proof/Laws/State.lean ====
section
/-! SUPPORT. One lemma per field per update of the state, so that no proof unfolds a record update. -/

namespace Sys2Proof.Machine

/-! ### `recordRead` -/

@[simp] theorem recordRead_st (v : Word32) (s : State) : (recordRead v s).st = s.st := rfl
@[simp] theorem recordRead_mode (v : Word32) (s : State) : (recordRead v s).mode = s.mode := rfl
@[simp] theorem recordRead_iv (v : Word32) (s : State) : (recordRead v s).iv = s.iv := rfl
@[simp] theorem recordRead_ivValid (v : Word32) (s : State) : (recordRead v s).ivValid = s.ivValid := rfl
@[simp] theorem recordRead_ivHiW (v : Word32) (s : State) : (recordRead v s).ivHiW = s.ivHiW := rfl
@[simp] theorem recordRead_ivLoW (v : Word32) (s : State) : (recordRead v s).ivLoW = s.ivLoW := rfl
@[simp] theorem recordRead_chain (v : Word32) (s : State) : (recordRead v s).chain = s.chain := rfl
@[simp] theorem recordRead_din (v : Word32) (s : State) : (recordRead v s).din = s.din := rfl
@[simp] theorem recordRead_dout (v : Word32) (s : State) : (recordRead v s).dout = s.dout := rfl
@[simp] theorem recordRead_outValid (v : Word32) (s : State) : (recordRead v s).outValid = s.outValid := rfl
@[simp] theorem recordRead_blkcnt (v : Word32) (s : State) : (recordRead v s).blkcnt = s.blkcnt := rfl
@[simp] theorem recordRead_errCode (v : Word32) (s : State) : (recordRead v s).errCode = s.errCode := rfl
@[simp] theorem recordRead_errMore (v : Word32) (s : State) : (recordRead v s).errMore = s.errMore := rfl
@[simp] theorem recordRead_errSrc (v : Word32) (s : State) : (recordRead v s).errSrc = s.errSrc := rfl
@[simp] theorem recordRead_errInfo (v : Word32) (s : State) : (recordRead v s).errInfo = s.errInfo := rfl
@[simp] theorem recordRead_req (v : Word32) (s : State) : (recordRead v s).req = s.req := rfl
@[simp] theorem recordRead_hold (v : Word32) (s : State) : (recordRead v s).hold = s.hold := rfl
@[simp] theorem recordRead_keyReady (v : Word32) (s : State) : (recordRead v s).keyReady = s.keyReady := rfl
@[simp] theorem recordRead_inputs (v : Word32) (s : State) : (recordRead v s).inputs = s.inputs := rfl
@[simp] theorem recordRead_reads (v : Word32) (s : State) : (recordRead v s).reads = s.reads ++ [v] := rfl

/-! ### `setInputs` -/

@[simp] theorem setInputs_st (rest : List Input) (s : State) : (setInputs rest s).st = s.st := rfl
@[simp] theorem setInputs_mode (rest : List Input) (s : State) : (setInputs rest s).mode = s.mode := rfl
@[simp] theorem setInputs_iv (rest : List Input) (s : State) : (setInputs rest s).iv = s.iv := rfl
@[simp] theorem setInputs_ivValid (rest : List Input) (s : State) : (setInputs rest s).ivValid = s.ivValid := rfl
@[simp] theorem setInputs_ivHiW (rest : List Input) (s : State) : (setInputs rest s).ivHiW = s.ivHiW := rfl
@[simp] theorem setInputs_ivLoW (rest : List Input) (s : State) : (setInputs rest s).ivLoW = s.ivLoW := rfl
@[simp] theorem setInputs_chain (rest : List Input) (s : State) : (setInputs rest s).chain = s.chain := rfl
@[simp] theorem setInputs_din (rest : List Input) (s : State) : (setInputs rest s).din = s.din := rfl
@[simp] theorem setInputs_dout (rest : List Input) (s : State) : (setInputs rest s).dout = s.dout := rfl
@[simp] theorem setInputs_outValid (rest : List Input) (s : State) : (setInputs rest s).outValid = s.outValid := rfl
@[simp] theorem setInputs_blkcnt (rest : List Input) (s : State) : (setInputs rest s).blkcnt = s.blkcnt := rfl
@[simp] theorem setInputs_errCode (rest : List Input) (s : State) : (setInputs rest s).errCode = s.errCode := rfl
@[simp] theorem setInputs_errMore (rest : List Input) (s : State) : (setInputs rest s).errMore = s.errMore := rfl
@[simp] theorem setInputs_errSrc (rest : List Input) (s : State) : (setInputs rest s).errSrc = s.errSrc := rfl
@[simp] theorem setInputs_errInfo (rest : List Input) (s : State) : (setInputs rest s).errInfo = s.errInfo := rfl
@[simp] theorem setInputs_req (rest : List Input) (s : State) : (setInputs rest s).req = s.req := rfl
@[simp] theorem setInputs_hold (rest : List Input) (s : State) : (setInputs rest s).hold = s.hold := rfl
@[simp] theorem setInputs_keyReady (rest : List Input) (s : State) : (setInputs rest s).keyReady = s.keyReady := rfl
@[simp] theorem setInputs_inputs (rest : List Input) (s : State) : (setInputs rest s).inputs = rest := rfl
@[simp] theorem setInputs_reads (rest : List Input) (s : State) : (setInputs rest s).reads = s.reads := rfl

/-! ### `setKeyReady` -/

@[simp] theorem setKeyReady_st (b : Bool) (s : State) : (setKeyReady b s).st = s.st := rfl
@[simp] theorem setKeyReady_mode (b : Bool) (s : State) : (setKeyReady b s).mode = s.mode := rfl
@[simp] theorem setKeyReady_iv (b : Bool) (s : State) : (setKeyReady b s).iv = s.iv := rfl
@[simp] theorem setKeyReady_ivValid (b : Bool) (s : State) : (setKeyReady b s).ivValid = s.ivValid := rfl
@[simp] theorem setKeyReady_ivHiW (b : Bool) (s : State) : (setKeyReady b s).ivHiW = s.ivHiW := rfl
@[simp] theorem setKeyReady_ivLoW (b : Bool) (s : State) : (setKeyReady b s).ivLoW = s.ivLoW := rfl
@[simp] theorem setKeyReady_chain (b : Bool) (s : State) : (setKeyReady b s).chain = s.chain := rfl
@[simp] theorem setKeyReady_din (b : Bool) (s : State) : (setKeyReady b s).din = s.din := rfl
@[simp] theorem setKeyReady_dout (b : Bool) (s : State) : (setKeyReady b s).dout = s.dout := rfl
@[simp] theorem setKeyReady_outValid (b : Bool) (s : State) : (setKeyReady b s).outValid = s.outValid := rfl
@[simp] theorem setKeyReady_blkcnt (b : Bool) (s : State) : (setKeyReady b s).blkcnt = s.blkcnt := rfl
@[simp] theorem setKeyReady_errCode (b : Bool) (s : State) : (setKeyReady b s).errCode = s.errCode := rfl
@[simp] theorem setKeyReady_errMore (b : Bool) (s : State) : (setKeyReady b s).errMore = s.errMore := rfl
@[simp] theorem setKeyReady_errSrc (b : Bool) (s : State) : (setKeyReady b s).errSrc = s.errSrc := rfl
@[simp] theorem setKeyReady_errInfo (b : Bool) (s : State) : (setKeyReady b s).errInfo = s.errInfo := rfl
@[simp] theorem setKeyReady_req (b : Bool) (s : State) : (setKeyReady b s).req = s.req := rfl
@[simp] theorem setKeyReady_hold (b : Bool) (s : State) : (setKeyReady b s).hold = s.hold := rfl
@[simp] theorem setKeyReady_keyReady (b : Bool) (s : State) : (setKeyReady b s).keyReady = b := rfl
@[simp] theorem setKeyReady_inputs (b : Bool) (s : State) : (setKeyReady b s).inputs = s.inputs := rfl
@[simp] theorem setKeyReady_reads (b : Bool) (s : State) : (setKeyReady b s).reads = s.reads := rfl

/-! ### `clearErr` -/

@[simp] theorem clearErr_st (s : State) : (clearErr s).st = s.st := rfl
@[simp] theorem clearErr_mode (s : State) : (clearErr s).mode = s.mode := rfl
@[simp] theorem clearErr_iv (s : State) : (clearErr s).iv = s.iv := rfl
@[simp] theorem clearErr_ivValid (s : State) : (clearErr s).ivValid = s.ivValid := rfl
@[simp] theorem clearErr_ivHiW (s : State) : (clearErr s).ivHiW = s.ivHiW := rfl
@[simp] theorem clearErr_ivLoW (s : State) : (clearErr s).ivLoW = s.ivLoW := rfl
@[simp] theorem clearErr_chain (s : State) : (clearErr s).chain = s.chain := rfl
@[simp] theorem clearErr_din (s : State) : (clearErr s).din = s.din := rfl
@[simp] theorem clearErr_dout (s : State) : (clearErr s).dout = s.dout := rfl
@[simp] theorem clearErr_outValid (s : State) : (clearErr s).outValid = s.outValid := rfl
@[simp] theorem clearErr_blkcnt (s : State) : (clearErr s).blkcnt = s.blkcnt := rfl
@[simp] theorem clearErr_errCode (s : State) : (clearErr s).errCode = 0 := rfl
@[simp] theorem clearErr_errMore (s : State) : (clearErr s).errMore = false := rfl
@[simp] theorem clearErr_errSrc (s : State) : (clearErr s).errSrc = false := rfl
@[simp] theorem clearErr_errInfo (s : State) : (clearErr s).errInfo = 0 := rfl
@[simp] theorem clearErr_req (s : State) : (clearErr s).req = s.req := rfl
@[simp] theorem clearErr_hold (s : State) : (clearErr s).hold = s.hold := rfl
@[simp] theorem clearErr_keyReady (s : State) : (clearErr s).keyReady = s.keyReady := rfl
@[simp] theorem clearErr_inputs (s : State) : (clearErr s).inputs = s.inputs := rfl
@[simp] theorem clearErr_reads (s : State) : (clearErr s).reads = s.reads := rfl

/-! ### `startMessage` -/

@[simp] theorem startMessage_st (m : Mode) (s : State) : (startMessage m s).st = .active := rfl
@[simp] theorem startMessage_mode (m : Mode) (s : State) : (startMessage m s).mode = m := rfl
@[simp] theorem startMessage_iv (m : Mode) (s : State) : (startMessage m s).iv = s.iv := rfl
@[simp] theorem startMessage_ivValid (m : Mode) (s : State) : (startMessage m s).ivValid = s.ivValid := rfl
@[simp] theorem startMessage_ivHiW (m : Mode) (s : State) : (startMessage m s).ivHiW = s.ivHiW := rfl
@[simp] theorem startMessage_ivLoW (m : Mode) (s : State) : (startMessage m s).ivLoW = s.ivLoW := rfl
@[simp] theorem startMessage_chain (m : Mode) (s : State) : (startMessage m s).chain = s.iv := rfl
@[simp] theorem startMessage_din (m : Mode) (s : State) : (startMessage m s).din = s.din := rfl
@[simp] theorem startMessage_dout (m : Mode) (s : State) : (startMessage m s).dout = s.dout := rfl
@[simp] theorem startMessage_outValid (m : Mode) (s : State) : (startMessage m s).outValid = false := rfl
@[simp] theorem startMessage_blkcnt (m : Mode) (s : State) : (startMessage m s).blkcnt = 0 := rfl
@[simp] theorem startMessage_errCode (m : Mode) (s : State) : (startMessage m s).errCode = s.errCode := rfl
@[simp] theorem startMessage_errMore (m : Mode) (s : State) : (startMessage m s).errMore = s.errMore := rfl
@[simp] theorem startMessage_errSrc (m : Mode) (s : State) : (startMessage m s).errSrc = s.errSrc := rfl
@[simp] theorem startMessage_errInfo (m : Mode) (s : State) : (startMessage m s).errInfo = s.errInfo := rfl
@[simp] theorem startMessage_req (m : Mode) (s : State) : (startMessage m s).req = s.req := rfl
@[simp] theorem startMessage_hold (m : Mode) (s : State) : (startMessage m s).hold = s.hold := rfl
@[simp] theorem startMessage_keyReady (m : Mode) (s : State) : (startMessage m s).keyReady = s.keyReady := rfl
@[simp] theorem startMessage_inputs (m : Mode) (s : State) : (startMessage m s).inputs = s.inputs := rfl
@[simp] theorem startMessage_reads (m : Mode) (s : State) : (startMessage m s).reads = s.reads := rfl

/-! ### `endMessage` -/

@[simp] theorem endMessage_st (s : State) : (endMessage s).st = .idle := rfl
@[simp] theorem endMessage_mode (s : State) : (endMessage s).mode = s.mode := rfl
@[simp] theorem endMessage_iv (s : State) : (endMessage s).iv = s.iv := rfl
@[simp] theorem endMessage_ivValid (s : State) : (endMessage s).ivValid = s.ivValid := rfl
@[simp] theorem endMessage_ivHiW (s : State) : (endMessage s).ivHiW = s.ivHiW := rfl
@[simp] theorem endMessage_ivLoW (s : State) : (endMessage s).ivLoW = s.ivLoW := rfl
@[simp] theorem endMessage_chain (s : State) : (endMessage s).chain = s.chain := rfl
@[simp] theorem endMessage_din (s : State) : (endMessage s).din = s.din := rfl
@[simp] theorem endMessage_dout (s : State) : (endMessage s).dout = s.dout := rfl
@[simp] theorem endMessage_outValid (s : State) : (endMessage s).outValid = s.outValid := rfl
@[simp] theorem endMessage_blkcnt (s : State) : (endMessage s).blkcnt = s.blkcnt := rfl
@[simp] theorem endMessage_errCode (s : State) : (endMessage s).errCode = s.errCode := rfl
@[simp] theorem endMessage_errMore (s : State) : (endMessage s).errMore = s.errMore := rfl
@[simp] theorem endMessage_errSrc (s : State) : (endMessage s).errSrc = s.errSrc := rfl
@[simp] theorem endMessage_errInfo (s : State) : (endMessage s).errInfo = s.errInfo := rfl
@[simp] theorem endMessage_req (s : State) : (endMessage s).req = s.req := rfl
@[simp] theorem endMessage_hold (s : State) : (endMessage s).hold = s.hold := rfl
@[simp] theorem endMessage_keyReady (s : State) : (endMessage s).keyReady = s.keyReady := rfl
@[simp] theorem endMessage_inputs (s : State) : (endMessage s).inputs = s.inputs := rfl
@[simp] theorem endMessage_reads (s : State) : (endMessage s).reads = s.reads := rfl

/-! ### `lockIv` -/

@[simp] theorem lockIv_st (s : State) : (lockIv s).st = s.st := rfl
@[simp] theorem lockIv_mode (s : State) : (lockIv s).mode = s.mode := rfl
@[simp] theorem lockIv_iv (s : State) : (lockIv s).iv = s.iv := rfl
@[simp] theorem lockIv_ivValid (s : State) : (lockIv s).ivValid = true := rfl
@[simp] theorem lockIv_ivHiW (s : State) : (lockIv s).ivHiW = s.ivHiW := rfl
@[simp] theorem lockIv_ivLoW (s : State) : (lockIv s).ivLoW = s.ivLoW := rfl
@[simp] theorem lockIv_chain (s : State) : (lockIv s).chain = s.chain := rfl
@[simp] theorem lockIv_din (s : State) : (lockIv s).din = s.din := rfl
@[simp] theorem lockIv_dout (s : State) : (lockIv s).dout = s.dout := rfl
@[simp] theorem lockIv_outValid (s : State) : (lockIv s).outValid = s.outValid := rfl
@[simp] theorem lockIv_blkcnt (s : State) : (lockIv s).blkcnt = s.blkcnt := rfl
@[simp] theorem lockIv_errCode (s : State) : (lockIv s).errCode = s.errCode := rfl
@[simp] theorem lockIv_errMore (s : State) : (lockIv s).errMore = s.errMore := rfl
@[simp] theorem lockIv_errSrc (s : State) : (lockIv s).errSrc = s.errSrc := rfl
@[simp] theorem lockIv_errInfo (s : State) : (lockIv s).errInfo = s.errInfo := rfl
@[simp] theorem lockIv_req (s : State) : (lockIv s).req = s.req := rfl
@[simp] theorem lockIv_hold (s : State) : (lockIv s).hold = s.hold := rfl
@[simp] theorem lockIv_keyReady (s : State) : (lockIv s).keyReady = s.keyReady := rfl
@[simp] theorem lockIv_inputs (s : State) : (lockIv s).inputs = s.inputs := rfl
@[simp] theorem lockIv_reads (s : State) : (lockIv s).reads = s.reads := rfl

/-! ### `setIvHi` -/

@[simp] theorem setIvHi_st (v : Word32) (s : State) : (setIvHi v s).st = s.st := rfl
@[simp] theorem setIvHi_mode (v : Word32) (s : State) : (setIvHi v s).mode = s.mode := rfl
@[simp] theorem setIvHi_iv (v : Word32) (s : State) : (setIvHi v s).iv = setHi s.iv v := rfl
@[simp] theorem setIvHi_ivValid (v : Word32) (s : State) : (setIvHi v s).ivValid = s.ivValid := rfl
@[simp] theorem setIvHi_ivHiW (v : Word32) (s : State) : (setIvHi v s).ivHiW = true := rfl
@[simp] theorem setIvHi_ivLoW (v : Word32) (s : State) : (setIvHi v s).ivLoW = s.ivLoW := rfl
@[simp] theorem setIvHi_chain (v : Word32) (s : State) : (setIvHi v s).chain = s.chain := rfl
@[simp] theorem setIvHi_din (v : Word32) (s : State) : (setIvHi v s).din = s.din := rfl
@[simp] theorem setIvHi_dout (v : Word32) (s : State) : (setIvHi v s).dout = s.dout := rfl
@[simp] theorem setIvHi_outValid (v : Word32) (s : State) : (setIvHi v s).outValid = s.outValid := rfl
@[simp] theorem setIvHi_blkcnt (v : Word32) (s : State) : (setIvHi v s).blkcnt = s.blkcnt := rfl
@[simp] theorem setIvHi_errCode (v : Word32) (s : State) : (setIvHi v s).errCode = s.errCode := rfl
@[simp] theorem setIvHi_errMore (v : Word32) (s : State) : (setIvHi v s).errMore = s.errMore := rfl
@[simp] theorem setIvHi_errSrc (v : Word32) (s : State) : (setIvHi v s).errSrc = s.errSrc := rfl
@[simp] theorem setIvHi_errInfo (v : Word32) (s : State) : (setIvHi v s).errInfo = s.errInfo := rfl
@[simp] theorem setIvHi_req (v : Word32) (s : State) : (setIvHi v s).req = s.req := rfl
@[simp] theorem setIvHi_hold (v : Word32) (s : State) : (setIvHi v s).hold = s.hold := rfl
@[simp] theorem setIvHi_keyReady (v : Word32) (s : State) : (setIvHi v s).keyReady = s.keyReady := rfl
@[simp] theorem setIvHi_inputs (v : Word32) (s : State) : (setIvHi v s).inputs = s.inputs := rfl
@[simp] theorem setIvHi_reads (v : Word32) (s : State) : (setIvHi v s).reads = s.reads := rfl

/-! ### `setIvLo` -/

@[simp] theorem setIvLo_st (v : Word32) (s : State) : (setIvLo v s).st = s.st := rfl
@[simp] theorem setIvLo_mode (v : Word32) (s : State) : (setIvLo v s).mode = s.mode := rfl
@[simp] theorem setIvLo_iv (v : Word32) (s : State) : (setIvLo v s).iv = setLo s.iv v := rfl
@[simp] theorem setIvLo_ivValid (v : Word32) (s : State) : (setIvLo v s).ivValid = s.ivValid := rfl
@[simp] theorem setIvLo_ivHiW (v : Word32) (s : State) : (setIvLo v s).ivHiW = s.ivHiW := rfl
@[simp] theorem setIvLo_ivLoW (v : Word32) (s : State) : (setIvLo v s).ivLoW = true := rfl
@[simp] theorem setIvLo_chain (v : Word32) (s : State) : (setIvLo v s).chain = s.chain := rfl
@[simp] theorem setIvLo_din (v : Word32) (s : State) : (setIvLo v s).din = s.din := rfl
@[simp] theorem setIvLo_dout (v : Word32) (s : State) : (setIvLo v s).dout = s.dout := rfl
@[simp] theorem setIvLo_outValid (v : Word32) (s : State) : (setIvLo v s).outValid = s.outValid := rfl
@[simp] theorem setIvLo_blkcnt (v : Word32) (s : State) : (setIvLo v s).blkcnt = s.blkcnt := rfl
@[simp] theorem setIvLo_errCode (v : Word32) (s : State) : (setIvLo v s).errCode = s.errCode := rfl
@[simp] theorem setIvLo_errMore (v : Word32) (s : State) : (setIvLo v s).errMore = s.errMore := rfl
@[simp] theorem setIvLo_errSrc (v : Word32) (s : State) : (setIvLo v s).errSrc = s.errSrc := rfl
@[simp] theorem setIvLo_errInfo (v : Word32) (s : State) : (setIvLo v s).errInfo = s.errInfo := rfl
@[simp] theorem setIvLo_req (v : Word32) (s : State) : (setIvLo v s).req = s.req := rfl
@[simp] theorem setIvLo_hold (v : Word32) (s : State) : (setIvLo v s).hold = s.hold := rfl
@[simp] theorem setIvLo_keyReady (v : Word32) (s : State) : (setIvLo v s).keyReady = s.keyReady := rfl
@[simp] theorem setIvLo_inputs (v : Word32) (s : State) : (setIvLo v s).inputs = s.inputs := rfl
@[simp] theorem setIvLo_reads (v : Word32) (s : State) : (setIvLo v s).reads = s.reads := rfl

/-! ### `setDinHi` -/

@[simp] theorem setDinHi_st (v : Word32) (s : State) : (setDinHi v s).st = s.st := rfl
@[simp] theorem setDinHi_mode (v : Word32) (s : State) : (setDinHi v s).mode = s.mode := rfl
@[simp] theorem setDinHi_iv (v : Word32) (s : State) : (setDinHi v s).iv = s.iv := rfl
@[simp] theorem setDinHi_ivValid (v : Word32) (s : State) : (setDinHi v s).ivValid = s.ivValid := rfl
@[simp] theorem setDinHi_ivHiW (v : Word32) (s : State) : (setDinHi v s).ivHiW = s.ivHiW := rfl
@[simp] theorem setDinHi_ivLoW (v : Word32) (s : State) : (setDinHi v s).ivLoW = s.ivLoW := rfl
@[simp] theorem setDinHi_chain (v : Word32) (s : State) : (setDinHi v s).chain = s.chain := rfl
@[simp] theorem setDinHi_din (v : Word32) (s : State) : (setDinHi v s).din = setHi s.din v := rfl
@[simp] theorem setDinHi_dout (v : Word32) (s : State) : (setDinHi v s).dout = s.dout := rfl
@[simp] theorem setDinHi_outValid (v : Word32) (s : State) : (setDinHi v s).outValid = s.outValid := rfl
@[simp] theorem setDinHi_blkcnt (v : Word32) (s : State) : (setDinHi v s).blkcnt = s.blkcnt := rfl
@[simp] theorem setDinHi_errCode (v : Word32) (s : State) : (setDinHi v s).errCode = s.errCode := rfl
@[simp] theorem setDinHi_errMore (v : Word32) (s : State) : (setDinHi v s).errMore = s.errMore := rfl
@[simp] theorem setDinHi_errSrc (v : Word32) (s : State) : (setDinHi v s).errSrc = s.errSrc := rfl
@[simp] theorem setDinHi_errInfo (v : Word32) (s : State) : (setDinHi v s).errInfo = s.errInfo := rfl
@[simp] theorem setDinHi_req (v : Word32) (s : State) : (setDinHi v s).req = s.req := rfl
@[simp] theorem setDinHi_hold (v : Word32) (s : State) : (setDinHi v s).hold = s.hold := rfl
@[simp] theorem setDinHi_keyReady (v : Word32) (s : State) : (setDinHi v s).keyReady = s.keyReady := rfl
@[simp] theorem setDinHi_inputs (v : Word32) (s : State) : (setDinHi v s).inputs = s.inputs := rfl
@[simp] theorem setDinHi_reads (v : Word32) (s : State) : (setDinHi v s).reads = s.reads := rfl

/-! ### `setDinLo` -/

@[simp] theorem setDinLo_st (v : Word32) (s : State) : (setDinLo v s).st = s.st := rfl
@[simp] theorem setDinLo_mode (v : Word32) (s : State) : (setDinLo v s).mode = s.mode := rfl
@[simp] theorem setDinLo_iv (v : Word32) (s : State) : (setDinLo v s).iv = s.iv := rfl
@[simp] theorem setDinLo_ivValid (v : Word32) (s : State) : (setDinLo v s).ivValid = s.ivValid := rfl
@[simp] theorem setDinLo_ivHiW (v : Word32) (s : State) : (setDinLo v s).ivHiW = s.ivHiW := rfl
@[simp] theorem setDinLo_ivLoW (v : Word32) (s : State) : (setDinLo v s).ivLoW = s.ivLoW := rfl
@[simp] theorem setDinLo_chain (v : Word32) (s : State) : (setDinLo v s).chain = s.chain := rfl
@[simp] theorem setDinLo_din (v : Word32) (s : State) : (setDinLo v s).din = setLo s.din v := rfl
@[simp] theorem setDinLo_dout (v : Word32) (s : State) : (setDinLo v s).dout = s.dout := rfl
@[simp] theorem setDinLo_outValid (v : Word32) (s : State) : (setDinLo v s).outValid = s.outValid := rfl
@[simp] theorem setDinLo_blkcnt (v : Word32) (s : State) : (setDinLo v s).blkcnt = s.blkcnt := rfl
@[simp] theorem setDinLo_errCode (v : Word32) (s : State) : (setDinLo v s).errCode = s.errCode := rfl
@[simp] theorem setDinLo_errMore (v : Word32) (s : State) : (setDinLo v s).errMore = s.errMore := rfl
@[simp] theorem setDinLo_errSrc (v : Word32) (s : State) : (setDinLo v s).errSrc = s.errSrc := rfl
@[simp] theorem setDinLo_errInfo (v : Word32) (s : State) : (setDinLo v s).errInfo = s.errInfo := rfl
@[simp] theorem setDinLo_req (v : Word32) (s : State) : (setDinLo v s).req = s.req := rfl
@[simp] theorem setDinLo_hold (v : Word32) (s : State) : (setDinLo v s).hold = s.hold := rfl
@[simp] theorem setDinLo_keyReady (v : Word32) (s : State) : (setDinLo v s).keyReady = s.keyReady := rfl
@[simp] theorem setDinLo_inputs (v : Word32) (s : State) : (setDinLo v s).inputs = s.inputs := rfl
@[simp] theorem setDinLo_reads (v : Word32) (s : State) : (setDinLo v s).reads = s.reads := rfl

/-! ### `clearInstance` -/

@[simp] theorem clearInstance_st (s : State) : (clearInstance s).st = .idle := rfl
@[simp] theorem clearInstance_mode (s : State) : (clearInstance s).mode = .enc := rfl
@[simp] theorem clearInstance_iv (s : State) : (clearInstance s).iv = 0 := rfl
@[simp] theorem clearInstance_ivValid (s : State) : (clearInstance s).ivValid = false := rfl
@[simp] theorem clearInstance_ivHiW (s : State) : (clearInstance s).ivHiW = false := rfl
@[simp] theorem clearInstance_ivLoW (s : State) : (clearInstance s).ivLoW = false := rfl
@[simp] theorem clearInstance_chain (s : State) : (clearInstance s).chain = 0 := rfl
@[simp] theorem clearInstance_din (s : State) : (clearInstance s).din = 0 := rfl
@[simp] theorem clearInstance_dout (s : State) : (clearInstance s).dout = 0 := rfl
@[simp] theorem clearInstance_outValid (s : State) : (clearInstance s).outValid = false := rfl
@[simp] theorem clearInstance_blkcnt (s : State) : (clearInstance s).blkcnt = 0 := rfl
@[simp] theorem clearInstance_errCode (s : State) : (clearInstance s).errCode = s.errCode := rfl
@[simp] theorem clearInstance_errMore (s : State) : (clearInstance s).errMore = s.errMore := rfl
@[simp] theorem clearInstance_errSrc (s : State) : (clearInstance s).errSrc = s.errSrc := rfl
@[simp] theorem clearInstance_errInfo (s : State) : (clearInstance s).errInfo = s.errInfo := rfl
@[simp] theorem clearInstance_req (s : State) : (clearInstance s).req = 0 := rfl
@[simp] theorem clearInstance_hold (s : State) : (clearInstance s).hold = 0 := rfl
@[simp] theorem clearInstance_keyReady (s : State) : (clearInstance s).keyReady = s.keyReady := rfl
@[simp] theorem clearInstance_inputs (s : State) : (clearInstance s).inputs = s.inputs := rfl
@[simp] theorem clearInstance_reads (s : State) : (clearInstance s).reads = s.reads := rfl

/-! ### `resetBlock` -/

@[simp] theorem resetBlock_st (s : State) : (resetBlock s).st = .idle := rfl
@[simp] theorem resetBlock_mode (s : State) : (resetBlock s).mode = .enc := rfl
@[simp] theorem resetBlock_iv (s : State) : (resetBlock s).iv = 0 := rfl
@[simp] theorem resetBlock_ivValid (s : State) : (resetBlock s).ivValid = false := rfl
@[simp] theorem resetBlock_ivHiW (s : State) : (resetBlock s).ivHiW = false := rfl
@[simp] theorem resetBlock_ivLoW (s : State) : (resetBlock s).ivLoW = false := rfl
@[simp] theorem resetBlock_chain (s : State) : (resetBlock s).chain = 0 := rfl
@[simp] theorem resetBlock_din (s : State) : (resetBlock s).din = 0 := rfl
@[simp] theorem resetBlock_dout (s : State) : (resetBlock s).dout = 0 := rfl
@[simp] theorem resetBlock_outValid (s : State) : (resetBlock s).outValid = false := rfl
@[simp] theorem resetBlock_blkcnt (s : State) : (resetBlock s).blkcnt = 0 := rfl
@[simp] theorem resetBlock_errCode (s : State) : (resetBlock s).errCode = 0 := rfl
@[simp] theorem resetBlock_errMore (s : State) : (resetBlock s).errMore = false := rfl
@[simp] theorem resetBlock_errSrc (s : State) : (resetBlock s).errSrc = false := rfl
@[simp] theorem resetBlock_errInfo (s : State) : (resetBlock s).errInfo = 0 := rfl
@[simp] theorem resetBlock_req (s : State) : (resetBlock s).req = 0 := rfl
@[simp] theorem resetBlock_hold (s : State) : (resetBlock s).hold = 0 := rfl
@[simp] theorem resetBlock_keyReady (s : State) : (resetBlock s).keyReady = s.keyReady := rfl
@[simp] theorem resetBlock_inputs (s : State) : (resetBlock s).inputs = s.inputs := rfl
@[simp] theorem resetBlock_reads (s : State) : (resetBlock s).reads = s.reads := rfl

/-! ### `issue` -/

@[simp] theorem issue_st (b : Block) (last : Bool) (s : State) : (issue b last s).st = if last then .busyLast else .busy := rfl
@[simp] theorem issue_mode (b : Block) (last : Bool) (s : State) : (issue b last s).mode = s.mode := rfl
@[simp] theorem issue_iv (b : Block) (last : Bool) (s : State) : (issue b last s).iv = s.iv := rfl
@[simp] theorem issue_ivValid (b : Block) (last : Bool) (s : State) : (issue b last s).ivValid = s.ivValid := rfl
@[simp] theorem issue_ivHiW (b : Block) (last : Bool) (s : State) : (issue b last s).ivHiW = s.ivHiW := rfl
@[simp] theorem issue_ivLoW (b : Block) (last : Bool) (s : State) : (issue b last s).ivLoW = s.ivLoW := rfl
@[simp] theorem issue_chain (b : Block) (last : Bool) (s : State) : (issue b last s).chain = s.chain := rfl
@[simp] theorem issue_din (b : Block) (last : Bool) (s : State) : (issue b last s).din = s.din := rfl
@[simp] theorem issue_dout (b : Block) (last : Bool) (s : State) : (issue b last s).dout = s.dout := rfl
@[simp] theorem issue_outValid (b : Block) (last : Bool) (s : State) : (issue b last s).outValid = false := rfl
@[simp] theorem issue_blkcnt (b : Block) (last : Bool) (s : State) : (issue b last s).blkcnt = s.blkcnt := rfl
@[simp] theorem issue_errCode (b : Block) (last : Bool) (s : State) : (issue b last s).errCode = s.errCode := rfl
@[simp] theorem issue_errMore (b : Block) (last : Bool) (s : State) : (issue b last s).errMore = s.errMore := rfl
@[simp] theorem issue_errSrc (b : Block) (last : Bool) (s : State) : (issue b last s).errSrc = s.errSrc := rfl
@[simp] theorem issue_errInfo (b : Block) (last : Bool) (s : State) : (issue b last s).errInfo = s.errInfo := rfl
@[simp] theorem issue_req (b : Block) (last : Bool) (s : State) : (issue b last s).req = requestOf s.mode b s.chain := rfl
@[simp] theorem issue_hold (b : Block) (last : Bool) (s : State) : (issue b last s).hold = b := rfl
@[simp] theorem issue_keyReady (b : Block) (last : Bool) (s : State) : (issue b last s).keyReady = s.keyReady := rfl
@[simp] theorem issue_inputs (b : Block) (last : Bool) (s : State) : (issue b last s).inputs = s.inputs := rfl
@[simp] theorem issue_reads (b : Block) (last : Bool) (s : State) : (issue b last s).reads = s.reads := rfl

/-! ### `complete` -/

@[simp] theorem complete_st (E : Engine) (s : State) : (complete E s).st = completionSt s.st := rfl
@[simp] theorem complete_mode (E : Engine) (s : State) : (complete E s).mode = s.mode := rfl
@[simp] theorem complete_iv (E : Engine) (s : State) : (complete E s).iv = s.iv := rfl
@[simp] theorem complete_ivValid (E : Engine) (s : State) : (complete E s).ivValid = s.ivValid := rfl
@[simp] theorem complete_ivHiW (E : Engine) (s : State) : (complete E s).ivHiW = s.ivHiW := rfl
@[simp] theorem complete_ivLoW (E : Engine) (s : State) : (complete E s).ivLoW = s.ivLoW := rfl
@[simp] theorem complete_chain (E : Engine) (s : State) : (complete E s).chain = completionChain E s := rfl
@[simp] theorem complete_din (E : Engine) (s : State) : (complete E s).din = s.din := rfl
@[simp] theorem complete_dout (E : Engine) (s : State) : (complete E s).dout = completionOut E s := rfl
@[simp] theorem complete_outValid (E : Engine) (s : State) : (complete E s).outValid = true := rfl
@[simp] theorem complete_blkcnt (E : Engine) (s : State) : (complete E s).blkcnt = s.blkcnt + 1 := rfl
@[simp] theorem complete_errCode (E : Engine) (s : State) : (complete E s).errCode = s.errCode := rfl
@[simp] theorem complete_errMore (E : Engine) (s : State) : (complete E s).errMore = s.errMore := rfl
@[simp] theorem complete_errSrc (E : Engine) (s : State) : (complete E s).errSrc = s.errSrc := rfl
@[simp] theorem complete_errInfo (E : Engine) (s : State) : (complete E s).errInfo = s.errInfo := rfl
@[simp] theorem complete_req (E : Engine) (s : State) : (complete E s).req = s.req := rfl
@[simp] theorem complete_hold (E : Engine) (s : State) : (complete E s).hold = s.hold := rfl
@[simp] theorem complete_keyReady (E : Engine) (s : State) : (complete E s).keyReady = s.keyReady := rfl
@[simp] theorem complete_inputs (E : Engine) (s : State) : (complete E s).inputs = s.inputs := rfl
@[simp] theorem complete_reads (E : Engine) (s : State) : (complete E s).reads = s.reads := rfl

/-! ### `raiseErr`: everything but the error fields -/

@[simp] theorem raiseErr_st (k : ErrKind) (src : Bool) (info : BitVec 8) (s : State) :
    (raiseErr k src info s).st = s.st := by
  unfold raiseErr; split <;> rfl
@[simp] theorem raiseErr_mode (k : ErrKind) (src : Bool) (info : BitVec 8) (s : State) :
    (raiseErr k src info s).mode = s.mode := by
  unfold raiseErr; split <;> rfl
@[simp] theorem raiseErr_iv (k : ErrKind) (src : Bool) (info : BitVec 8) (s : State) :
    (raiseErr k src info s).iv = s.iv := by
  unfold raiseErr; split <;> rfl
@[simp] theorem raiseErr_ivValid (k : ErrKind) (src : Bool) (info : BitVec 8) (s : State) :
    (raiseErr k src info s).ivValid = s.ivValid := by
  unfold raiseErr; split <;> rfl
@[simp] theorem raiseErr_ivHiW (k : ErrKind) (src : Bool) (info : BitVec 8) (s : State) :
    (raiseErr k src info s).ivHiW = s.ivHiW := by
  unfold raiseErr; split <;> rfl
@[simp] theorem raiseErr_ivLoW (k : ErrKind) (src : Bool) (info : BitVec 8) (s : State) :
    (raiseErr k src info s).ivLoW = s.ivLoW := by
  unfold raiseErr; split <;> rfl
@[simp] theorem raiseErr_chain (k : ErrKind) (src : Bool) (info : BitVec 8) (s : State) :
    (raiseErr k src info s).chain = s.chain := by
  unfold raiseErr; split <;> rfl
@[simp] theorem raiseErr_din (k : ErrKind) (src : Bool) (info : BitVec 8) (s : State) :
    (raiseErr k src info s).din = s.din := by
  unfold raiseErr; split <;> rfl
@[simp] theorem raiseErr_dout (k : ErrKind) (src : Bool) (info : BitVec 8) (s : State) :
    (raiseErr k src info s).dout = s.dout := by
  unfold raiseErr; split <;> rfl
@[simp] theorem raiseErr_outValid (k : ErrKind) (src : Bool) (info : BitVec 8) (s : State) :
    (raiseErr k src info s).outValid = s.outValid := by
  unfold raiseErr; split <;> rfl
@[simp] theorem raiseErr_blkcnt (k : ErrKind) (src : Bool) (info : BitVec 8) (s : State) :
    (raiseErr k src info s).blkcnt = s.blkcnt := by
  unfold raiseErr; split <;> rfl
@[simp] theorem raiseErr_req (k : ErrKind) (src : Bool) (info : BitVec 8) (s : State) :
    (raiseErr k src info s).req = s.req := by
  unfold raiseErr; split <;> rfl
@[simp] theorem raiseErr_hold (k : ErrKind) (src : Bool) (info : BitVec 8) (s : State) :
    (raiseErr k src info s).hold = s.hold := by
  unfold raiseErr; split <;> rfl
@[simp] theorem raiseErr_keyReady (k : ErrKind) (src : Bool) (info : BitVec 8) (s : State) :
    (raiseErr k src info s).keyReady = s.keyReady := by
  unfold raiseErr; split <;> rfl
@[simp] theorem raiseErr_inputs (k : ErrKind) (src : Bool) (info : BitVec 8) (s : State) :
    (raiseErr k src info s).inputs = s.inputs := by
  unfold raiseErr; split <;> rfl
@[simp] theorem raiseErr_reads (k : ErrKind) (src : Bool) (info : BitVec 8) (s : State) :
    (raiseErr k src info s).reads = s.reads := by
  unfold raiseErr; split <;> rfl

end Sys2Proof.Machine
end

