-- ==== Sys2Proof/Laws/Ops.lean ====
section
/-! SUPPORT. What each shared operation and each instruction can do, said once. -/

namespace Sys2Proof.Machine

/-! ### Busy states -/

theorem isBusy_iff (s : State) : s.isBusy = true ↔ s.st = .busy ∨ s.st = .busyLast := by
  unfold State.isBusy
  cases s.st <;> simp

theorem isBusy_eq_false_iff (s : State) : s.isBusy = false ↔ s.st = .idle ∨ s.st = .active := by
  unfold State.isBusy
  cases s.st <;> simp

/-! ### Errors -/

theorem raiseErr_of_clear {s : State} (h : s.errCode = 0) (k : ErrKind) (src : Bool) (info : BitVec 8) :
    raiseErr k src info s = { s with errCode := k.code, errSrc := src, errInfo := info } := if_pos h

theorem raiseErr_of_pending {s : State} (h : s.errCode ≠ 0) (k : ErrKind) (src : Bool) (info : BitVec 8) :
    raiseErr k src info s = { s with errMore := true } := if_neg h

theorem ErrKind.code_ne_zero (k : ErrKind) : k.code ≠ 0 := by cases k <;> decide

/-- A refusal always leaves an error recorded (R96). -/
theorem raiseErr_errCode_ne_zero (k : ErrKind) (src : Bool) (info : BitVec 8) (s : State) :
    (raiseErr k src info s).errCode ≠ 0 := by
  by_cases h : s.errCode = 0
  · rw [raiseErr_of_clear h]; exact k.code_ne_zero
  · rw [raiseErr_of_pending h]; exact h

/-! ### Commands -/

/-- A word that decodes to a command carries that command's opcode and decodes as a line to its instruction. -/
theorem decode_cmdw_of_some {w : Word32} {c : Command} (h : decodeCommand w = some c) :
    decode (.cmdw w) = .ok c.toInstr := by simp [decode, h]

theorem exec_toInstr (c : Command) (s : State) : exec c.toInstr s = runCommand c s := by cases c <;> rfl

theorem exec_wrCmd_of_some {w : Word32} {c : Command} (h : decodeCommand w = some c) (s : State) :
    exec (.wrCmd w) s = exec c.toInstr s := by
  rw [exec_toInstr]
  simp [exec, execWrCmd, cmdWrite, h]

theorem exec_wrCmd_of_none {w : Word32} (h : decodeCommand w = none) (s : State) :
    exec (.wrCmd w) s = illegalCommand w s := by simp [exec, execWrCmd, cmdWrite, h]

theorem toInstr_wf (c : Command) : c.toInstr.wf = true := by
  cases c with
  | finish nb => simpa [Command.toInstr, Instr.wf, nbInRange] using nb.isLt
  | _ => rfl

/-! ### Everything an instruction can do -/

/-- The next states of an instruction, with what its rule has checked. -/
inductive Effect (s : State) : State → Prop where
  /-- NOP, and ABORT in IDLE (R63, R69). -/
  | same : Effect s s
  /-- A read (R73). -/
  | read (v : Word32) : Effect s (recordRead v s)
  /-- A refused command (R96). -/
  | refusedCommand (k : ErrKind) (op : BitVec 4) (hk : k ≠ .invalidInputType) :
      Effect s (raiseErr k false (op.setWidth 8) s)
  /-- A refused register write (R96). -/
  | refusedWrite (k : ErrKind) (off : BitVec 8) (hk : k ≠ .invalidInputType)
      (hoff : off.toNat < 64 ∧ off.toNat % 4 = 0) : Effect s (raiseErr k true off s)
  /-- LOCK_IV (R64). -/
  | locked (hb : s.isBusy = false) (hv : s.ivValid = false) (hh : s.ivHiW = true) (hl : s.ivLoW = true) :
      Effect s (lockIv s)
  /-- START (R65, R66). -/
  | started (m : Mode) (hs : s.st = .idle) (hv : s.ivValid = true) (hk : s.keyReady = true) :
      Effect s (startMessage m s)
  /-- PUSH (R67). -/
  | pushed (hs : s.st = .active) (hk : s.keyReady = true) : Effect s (issue s.din false s)
  /-- FINISH with NB > 0 (R68). -/
  | finished (nb : Nat) (h0 : 0 < nb) (h8 : nb < 8) (hs : s.st = .active) (hk : s.keyReady = true) :
      Effect s (issue (pad s.din nb) true s)
  /-- FINISH with NB = 0, and ABORT in ACTIVE (R68, R69). -/
  | ended (hs : s.st = .active) : Effect s (endMessage s)
  /-- CLEAR (R70). -/
  | cleared (hb : s.isBusy = false) : Effect s (clearInstance s)
  /-- CLR_ERR (R71). -/
  | errCleared : Effect s (clearErr s)
  /-- IV_HI written (R90). -/
  | ivHi (v : Word32) (hv : s.ivValid = false) : Effect s (setIvHi v s)
  /-- IV_LO written (R91). -/
  | ivLo (v : Word32) (hv : s.ivValid = false) : Effect s (setIvLo v s)
  /-- DIN_HI written (R92). -/
  | dinHi (v : Word32) : Effect s (setDinHi v s)
  /-- DIN_LO written (R93). -/
  | dinLo (v : Word32) : Effect s (setDinLo v s)

theorem startCommand_effect (m : Mode) (op : BitVec 4) (s : State) :
    ∃ t, startCommand m op s = .next t ∧ Effect s t := by
  unfold startCommand unlessBusy refuseCommand
  split
  · exact ⟨_, rfl, .refusedCommand _ _ (by decide)⟩
  · rename_i hb
    split
    · exact ⟨_, rfl, .refusedCommand _ _ (by decide)⟩
    · rename_i ha
      split
      · exact ⟨_, rfl, .refusedCommand _ _ (by decide)⟩
      · split
        · exact ⟨_, rfl, .refusedCommand _ _ (by decide)⟩
        · refine ⟨_, rfl, .started m ?_ (by simp_all) (by simp_all)⟩
          have := (isBusy_eq_false_iff s).1 (by simpa using hb)
          simpa [ha] using this

/-- A command always answers a next state, and it is one of `Effect`'s. -/
theorem runCommand_effect (c : Command) (s : State) : ∃ t, runCommand c s = .next t ∧ Effect s t := by
  cases c with
  | nop => exact ⟨_, rfl, .same⟩
  | startEnc => exact startCommand_effect _ _ s
  | startDec => exact startCommand_effect _ _ s
  | clrErr => exact ⟨_, rfl, .errCleared⟩
  | lockIv =>
    simp only [runCommand, execLockIv, unlessBusy, refuseCommand]
    split
    · exact ⟨_, rfl, .refusedCommand _ _ (by decide)⟩
    · rename_i hb
      split
      · exact ⟨_, rfl, .refusedCommand _ _ (by decide)⟩
      · rename_i hv
        split
        · rename_i hw
          exact ⟨_, rfl, .locked (by simpa using hb) (by simpa using hv) (by simp_all) (by simp_all)⟩
        · exact ⟨_, rfl, .refusedCommand _ _ (by decide)⟩
  | push =>
    simp only [runCommand, execPush, unlessBusy, refuseCommand]
    split
    · exact ⟨_, rfl, .refusedCommand _ _ (by decide)⟩
    · rename_i hb
      split
      · exact ⟨_, rfl, .refusedCommand _ _ (by decide)⟩
      · rename_i hi
        split
        · exact ⟨_, rfl, .refusedCommand _ _ (by decide)⟩
        · refine ⟨_, rfl, .pushed ?_ (by simp_all)⟩
          simpa [hi] using (isBusy_eq_false_iff s).1 (by simpa using hb)
  | finish nb =>
    have h8 : nb.toNat < 8 := nb.isLt
    simp only [runCommand, execFinish, nbInRange, h8, decide_true, if_true, unlessBusy, refuseCommand]
    split
    · exact ⟨_, rfl, .refusedCommand _ _ (by decide)⟩
    · rename_i hb
      split
      · exact ⟨_, rfl, .refusedCommand _ _ (by decide)⟩
      · rename_i hi
        have ha : s.st = .active := by simpa [hi] using (isBusy_eq_false_iff s).1 (by simpa using hb)
        split
        · exact ⟨_, rfl, .ended ha⟩
        · split
          · exact ⟨_, rfl, .refusedCommand _ _ (by decide)⟩
          · exact ⟨_, rfl, .finished nb.toNat (by omega) h8 ha (by simp_all)⟩
  | abort =>
    simp only [runCommand, execAbort, unlessBusy, refuseCommand]
    split
    · exact ⟨_, rfl, .refusedCommand _ _ (by decide)⟩
    · split
      · rename_i ha
        exact ⟨_, rfl, .ended ha⟩
      · exact ⟨_, rfl, .same⟩
  | clear =>
    simp only [runCommand, execClear, unlessBusy, refuseCommand]
    split
    · exact ⟨_, rfl, .refusedCommand _ _ (by decide)⟩
    · rename_i hb
      exact ⟨_, rfl, .cleared (by simpa using hb)⟩

/-- A write to CMD always answers a next state, and it is one of `Effect`'s. -/
theorem cmdWrite_effect (w : Word32) (s : State) : ∃ t, cmdWrite w s = .next t ∧ Effect s t := by
  unfold cmdWrite
  split
  · exact ⟨_, rfl, .refusedCommand _ _ (by decide)⟩
  · exact runCommand_effect _ s

/-- A well-formed instruction always answers a next state, and it is one of `Effect`'s. -/
theorem exec_effect {i : Instr} (hwf : i.wf = true) (s : State) : ∃ t, exec i s = .next t ∧ Effect s t := by
  cases i with
  | nop => exact runCommand_effect .nop s
  | lockIv => exact runCommand_effect .lockIv s
  | startEnc => exact runCommand_effect .startEnc s
  | startDec => exact runCommand_effect .startDec s
  | push => exact runCommand_effect .push s
  | finish nb =>
    have h8 : nb < 8 := by simpa [Instr.wf, nbInRange] using hwf
    have h := runCommand_effect (.finish (BitVec.ofNat 3 nb)) s
    have hn : (BitVec.ofNat 3 nb).toNat = nb := by simp; omega
    simpa only [runCommand, hn, exec] using h
  | abort => exact runCommand_effect .abort s
  | clear => exact runCommand_effect .clear s
  | clrErr => exact runCommand_effect .clrErr s
  | wrCmd v => exact cmdWrite_effect v s
  | wrIvHi v =>
    simp only [exec, execWrIvHi, refuseWrite]
    split
    · exact ⟨_, rfl, .refusedWrite _ _ (by decide) (by decide)⟩
    · rename_i hv
      exact ⟨_, rfl, .ivHi v (by simpa using hv)⟩
  | wrIvLo v =>
    simp only [exec, execWrIvLo, refuseWrite]
    split
    · exact ⟨_, rfl, .refusedWrite _ _ (by decide) (by decide)⟩
    · rename_i hv
      exact ⟨_, rfl, .ivLo v (by simpa using hv)⟩
  | wrDinHi v => exact ⟨_, rfl, .dinHi v⟩
  | wrDinLo v => exact ⟨_, rfl, .dinLo v⟩
  | rdId | rdCmd | rdStatus | rdErr | rdIvHi | rdIvLo | rdDinHi | rdDinLo | rdDoutHi | rdDoutLo | rdChainHi
  | rdChainLo | rdBlkcnt | rdRsv34 | rdRsv38 | rdRsv3C => exact ⟨_, rfl, .read _⟩
  | wrRoId v | wrRoStatus v | wrRoErr v | wrRoDoutHi v | wrRoDoutLo v | wrRoChainHi v | wrRoChainLo v
  | wrRoBlkcnt v | wrRo34 v | wrRo38 v | wrRo3C v =>
    exact ⟨_, rfl, .refusedWrite _ _ (by decide) (by decide)⟩

/-- A term that answers a next state is well-formed. -/
theorem wf_of_exec_next {i : Instr} {s t : State} (h : exec i s = .next t) : i.wf = true := by
  cases i with
  | finish nb =>
    by_cases hn : nbInRange nb = true
    · exact hn
    · simp [exec, execFinish, hn] at h
  | _ => rfl

/-- Everything `exec` can do when it answers a next state. -/
theorem effect_of_exec_next {i : Instr} {s t : State} (h : exec i s = .next t) : Effect s t := by
  obtain ⟨t', h', he⟩ := exec_effect (wf_of_exec_next h) s
  rw [h] at h'
  cases h'
  exact he

/-! ### Host lines -/

/-- Every access decodes to a well-formed instruction. -/
theorem decodeAccess_wf (a : Descriptor) (v : Word32) : (decodeAccess a v).wf = true := by
  unfold decodeAccess decodeWrite decodeRead
  split <;> split <;> rfl

/-- Every host line answers a next state, and it is one of `Effect`'s. -/
theorem hostLine_effect (f : Frame) (s : State) : ∃ t, hostLine f s = .next t ∧ Effect s t := by
  cases f with
  | cmdw w =>
    cases h : decodeCommand w with
    | none =>
      refine ⟨raiseErr .illegalCmd false ((cmdOp w).setWidth 8) s, ?_, .refusedCommand _ _ (by decide)⟩
      simp [hostLine, decode, h, illegalCommand, refuseCommand]
    | some c =>
      obtain ⟨t, ht, he⟩ := runCommand_effect c s
      refine ⟨t, ?_, he⟩
      simp only [hostLine, decode_cmdw_of_some h, exec_toInstr, ht]
  | access a v =>
    obtain ⟨t, ht, he⟩ := exec_effect (decodeAccess_wf a v) s
    exact ⟨t, by simpa [hostLine, decode] using ht, he⟩

theorem hostLine_of_decode {f : Frame} {i : Instr} (h : decode f = .ok i) (s : State) :
    hostLine f s = exec i s := by simp [hostLine, h]

/-! ### The step -/

theorem stepWith_nil {s : State} (h : s.inputs = []) (E : Engine) : stepWith E s = .next (engineRespond E s) := by
  simp [stepWith, h, idleStep]

theorem stepWith_cons {s : State} {x : Input} {rest : List Input} (h : s.inputs = x :: rest) (E : Engine) :
    stepWith E s = takeInput E x rest s := by simp [stepWith, h]

theorem busFrame_shape (c : BusCycle) :
    (∃ a v, busFrame c = .ok (.access a v)) ∨ ∃ r, busFrame c = .error r := by
  unfold busFrame
  split
  · exact .inr ⟨_, rfl⟩
  · split
    · exact .inr ⟨_, rfl⟩
    · split
      · exact .inr ⟨_, rfl⟩
      · exact .inl ⟨_, _, rfl⟩

theorem hostFrame_line (f : Frame) : Input.hostFrame (.line f) = some f := rfl

theorem hostFrame_bus_of_ok {c : BusCycle} {f : Frame} (h : busFrame c = .ok f) :
    Input.hostFrame (.bus c) = some f := by simp [Input.hostFrame, h]

/-- Everything a step can do when it answers a next state, with the pending step it took: a host access's effect on the
state with the step taken, a completion, an ignored response, a `wait` done, a change of `keyReady`, or a reset. -/
inductive StepEffect (E : Engine) (s : State) : State → Prop where
  /-- A host line or bus cycle. -/
  | host (x : Input) (f : Frame) (rest : List Input) (t : State) (hin : s.inputs = x :: rest)
      (hf : x.hostFrame = some f) (ht : hostLine f (setInputs rest s) = .next t)
      (he : Effect (setInputs rest s) t) : StepEffect E s t
  /-- An engine response: a completion in a busy state, ignored in any other (R54, R118). -/
  | response (rest : List Input) (hin : s.inputs = .engineResponse :: rest) :
      StepEffect E s (engineRespond E (setInputs rest s))
  /-- A `wait` in a busy state (R47), or no input left (R128). -/
  | own (hin : s.inputs = [] ∨ s.isBusy = true ∧ ∃ rest, s.inputs = .wait :: rest) :
      StepEffect E s (engineRespond E s)
  /-- A `wait` outside the busy states (R47). -/
  | waited (rest : List Input) (hin : s.inputs = .wait :: rest) (hb : s.isBusy = false) :
      StepEffect E s (recordRead (statusWord s) (setInputs rest s))
  /-- A change of the key input (R20). -/
  | keyed (rest : List Input) (b : Bool) (hin : s.inputs = .keyReady b :: rest) :
      StepEffect E s (setKeyReady b (setInputs rest s))
  /-- A reset (R117). -/
  | reset (rest : List Input) (hin : s.inputs = .rst :: rest) : StepEffect E s (resetBlock (setInputs rest s))

theorem stepEffect_of_stepWith_next {E : Engine} {s t : State} (h : stepWith E s = .next t) :
    StepEffect E s t := by
  cases hin : s.inputs with
  | nil =>
    rw [stepWith_nil hin] at h
    cases h
    exact .own (.inl hin)
  | cons x rest =>
    rw [stepWith_cons hin] at h
    cases x with
    | line f =>
      obtain ⟨t', ht', he⟩ := hostLine_effect f (setInputs rest s)
      rw [takeInput, ht'] at h
      cases h
      exact .host _ f rest _ hin (hostFrame_line f) ht' he
    | bus c =>
      simp only [takeInput, hostBus] at h
      split at h
      · rename_i f hc
        obtain ⟨t', ht', he⟩ := hostLine_effect f (setInputs rest s)
        rw [ht'] at h
        cases h
        exact .host _ f rest _ hin (hostFrame_bus_of_ok hc) ht' he
      · cases h
    | wait =>
      simp only [takeInput, hostWait] at h
      split at h
      · rename_i hb
        cases h
        have : complete E s = engineRespond E s := by simp [engineRespond, hb]
        rw [this]
        exact .own (.inr ⟨hb, rest, hin⟩)
      · rename_i hb
        cases h
        exact .waited rest hin (by simpa using hb)
    | engineResponse => cases h; exact .response rest hin
    | keyReady b => cases h; exact .keyed rest b hin
    | rst => cases h; exact .reset rest hin

end Sys2Proof.Machine
end

