-- ==== Sys2Proof/Laws/Agents.lean ====
section
/-! SUPPORT. What each agent's step is: host accesses at the pins, and the events of one hardware cycle. -/

namespace Sys2Proof.Machine

/-! ### Host accesses -/

/-- A step with a frame is that frame's line. -/
theorem takeInput_of_hostFrame {x : Input} {f : Frame} (h : x.hostFrame = some f) (E : Engine) (rest : List Input)
    (s : State) : takeInput E x rest s = hostLine f (setInputs rest s) := by
  cases x with
  | line g => cases h; rfl
  | bus c =>
    simp only [Input.hostFrame] at h
    split at h
    · rename_i hc
      cases h
      simp [takeInput, hostBus, hc]
    · cases h
  | wait => cases h
  | engineResponse => cases h
  | keyReady b => cases h
  | rst => cases h

/-- The access a legal bus cycle is (R45). -/
theorem busFrame_of_legal {c : BusCycle} (h : c.Legal) :
    busFrame c =
      .ok (.access (BitVec.ofBool c.we ++ BitVec.ofNat 4 ((c.addr - Config.cbcBase) / 4)) c.wdata) := by
  have h1 : ¬ (c.addr < Config.cbcBase ∨ Config.cbcBase + Config.windowBytes ≤ c.addr) := by
    have hb := h.atBase
    have hw := h.inWindow
    simp only [Config.windowBytes]
    omega
  rw [busFrame, if_neg h1, if_neg (not_not.2 h.width), if_neg (not_not.2 h.aligned)]

/-! ### The events of one hardware cycle (R108) -/

@[simp] theorem cycleInputs_rst (response : Bool) (access : Option Frame) :
    cycleInputs true response access = [.rst] := rfl

@[simp] theorem cycleInputs_response_access (f : Frame) :
    cycleInputs false true (some f) = [.engineResponse, .line f] := rfl

@[simp] theorem cycleInputs_response : cycleInputs false true none = [.engineResponse] := rfl

@[simp] theorem cycleInputs_access (f : Frame) : cycleInputs false false (some f) = [.line f] := rfl

@[simp] theorem cycleInputs_none : cycleInputs false false none = [] := rfl

/-! ### A completion, however it comes -/

/-- With no step pending a busy block completes (R54, R128). -/
theorem stepWith_nil_of_isBusy {s : State} (h : s.inputs = []) (hb : s.isBusy = true) (E : Engine) :
    stepWith E s = .next (complete E s) := by rw [stepWith_nil h, engineRespond, if_pos hb]

/-- With no step pending a block that is not busy stays as it is (R119). -/
theorem stepWith_of_ended {s : State} (h : Ended s) (E : Engine) : stepWith E s = .next s := by
  rw [stepWith_nil h.1, engineRespond, if_neg (by simp [h.2])]

/-- At a `wait` a busy block completes, and the `wait` stays pending (R47). -/
theorem stepWith_wait_of_isBusy {s : State} {rest : List Input} (h : s.inputs = .wait :: rest) (hb : s.isBusy = true)
    (E : Engine) : stepWith E s = .next (complete E s) := by
  rw [stepWith_cons h]
  simp [takeInput, hostWait, hb]

end Sys2Proof.Machine
end

