-- ==== Sys2Proof/Laws/PerInstr.lean ====
section
/-! SUPPORT. What every constructor of `Instr` says of its own encoding, one lemma each. -/

namespace Sys2Proof.Laws.FrameFormat

/-- A frame in its format: in a command word bits 31..7 are 0, and bits 6..4 too unless OP is 5 (R40); a read's write data
lines carry 0 (log entry 13). -/
def inFormat (f : Frame) : Bool :=
  match f with
  | .cmdw w => cmdAboveNb w == 0 && (cmdOp w == 5#4 || cmdNb w == 0)
  | .access a v => accessWe a || v == 0

/-- A well-formed instruction's frame is in its format. -/
def Statement (i : Instr) : Prop := i.wf = true → inFormat (encode i) = true

theorem nop : Statement .nop := fun _ => by decide

theorem lockIv : Statement .lockIv := fun _ => by decide

theorem startEnc : Statement .startEnc := fun _ => by decide

theorem startDec : Statement .startDec := fun _ => by decide

theorem push : Statement .push := fun _ => by decide

theorem finish (nb : Nat) : Statement (.finish nb) := by
  intro h
  have h8 : nb < 8 := by simpa [Instr.wf, nbInRange] using h
  interval_cases nb <;> decide

theorem abort : Statement .abort := fun _ => by decide

theorem clear : Statement .clear := fun _ => by decide

theorem clrErr : Statement .clrErr := fun _ => by decide

theorem rdId : Statement .rdId := fun _ => rfl

theorem rdCmd : Statement .rdCmd := fun _ => rfl

theorem rdStatus : Statement .rdStatus := fun _ => rfl

theorem rdErr : Statement .rdErr := fun _ => rfl

theorem rdIvHi : Statement .rdIvHi := fun _ => rfl

theorem rdIvLo : Statement .rdIvLo := fun _ => rfl

theorem rdDinHi : Statement .rdDinHi := fun _ => rfl

theorem rdDinLo : Statement .rdDinLo := fun _ => rfl

theorem rdDoutHi : Statement .rdDoutHi := fun _ => rfl

theorem rdDoutLo : Statement .rdDoutLo := fun _ => rfl

theorem rdChainHi : Statement .rdChainHi := fun _ => rfl

theorem rdChainLo : Statement .rdChainLo := fun _ => rfl

theorem rdBlkcnt : Statement .rdBlkcnt := fun _ => rfl

theorem rdRsv34 : Statement .rdRsv34 := fun _ => rfl

theorem rdRsv38 : Statement .rdRsv38 := fun _ => rfl

theorem rdRsv3C : Statement .rdRsv3C := fun _ => rfl

theorem wrCmd (v : Word32) : Statement (.wrCmd v) := fun _ => rfl

theorem wrIvHi (v : Word32) : Statement (.wrIvHi v) := fun _ => rfl

theorem wrIvLo (v : Word32) : Statement (.wrIvLo v) := fun _ => rfl

theorem wrDinHi (v : Word32) : Statement (.wrDinHi v) := fun _ => rfl

theorem wrDinLo (v : Word32) : Statement (.wrDinLo v) := fun _ => rfl

theorem wrRoId (v : Word32) : Statement (.wrRoId v) := fun _ => rfl

theorem wrRoStatus (v : Word32) : Statement (.wrRoStatus v) := fun _ => rfl

theorem wrRoErr (v : Word32) : Statement (.wrRoErr v) := fun _ => rfl

theorem wrRoDoutHi (v : Word32) : Statement (.wrRoDoutHi v) := fun _ => rfl

theorem wrRoDoutLo (v : Word32) : Statement (.wrRoDoutLo v) := fun _ => rfl

theorem wrRoChainHi (v : Word32) : Statement (.wrRoChainHi v) := fun _ => rfl

theorem wrRoChainLo (v : Word32) : Statement (.wrRoChainLo v) := fun _ => rfl

theorem wrRoBlkcnt (v : Word32) : Statement (.wrRoBlkcnt v) := fun _ => rfl

theorem wrRo34 (v : Word32) : Statement (.wrRo34 v) := fun _ => rfl

theorem wrRo38 (v : Word32) : Statement (.wrRo38 v) := fun _ => rfl

theorem wrRo3C (v : Word32) : Statement (.wrRo3C v) := fun _ => rfl

end Sys2Proof.Laws.FrameFormat
end

