-- ==== Sys2Proof/Laws/Script.lean ====
section
/-! SUPPORT. Messages and what CBC computes on them. -/

namespace Sys2Proof.Machine

theorem Message.blocks_of_nb_zero {m : Message} (h : m.nb = 0) : m.blocks = m.full.map Prod.fst := by
  simp [Message.blocks, h]

theorem Message.blocks_of_nb_ne_zero {m : Message} (h : m.nb ≠ 0) :
    m.blocks = m.full.map Prod.fst ++ [pad m.last m.nb] := by
  simp [Message.blocks, h]

theorem fullBlocks_length (n : Nat) (bytes : List Byte) : (fullBlocks n bytes).length = n := by
  induction n generalizing bytes with
  | zero => rfl
  | succ n ih => simp [fullBlocks, ih]

theorem finishInputs_of_nb_zero {m : Message} (h : m.nb = 0) : finishInputs m = [lineOf (.finish 0)] := by
  simp [finishInputs, h]

theorem finishInputs_of_nb_ne_zero {m : Message} (h : m.nb ≠ 0) :
    finishInputs m = sendBlock (.finish m.nb) m.last m.lastEarly := by
  simp [finishInputs, h]

@[simp] theorem cbcEncrypt_length (E : Engine) (c : Block) (ps : List Block) :
    (cbcEncrypt E c ps).length = ps.length := by
  induction ps generalizing c with
  | nil => rfl
  | cons p rest ih => simp [cbcEncrypt, ih]

@[simp] theorem cbcDecrypt_length (E : Engine) (c : Block) (cs : List Block) :
    (cbcDecrypt E c cs).length = cs.length := by
  induction cs generalizing c with
  | nil => rfl
  | cons x rest ih => simp [cbcDecrypt, ih]

/-- `hInv` (R7) on packed blocks. -/
theorem engineCall_dec_enc {E : Engine} (h : E.InverseLaw) (x : Block) :
    engineCall E .dec (engineCall E .enc x) = x := by
  simp [engineCall, h (hiWord x, loWord x)]

/-- What a run of `m + n` steps answers, when its first `m` steps answer `t`. -/
theorem runWith_add {E : Engine} {m : Nat} {s t : State} (h : runWith E m s = .next t) (n : Nat) :
    runWith E (m + n) s = runWith E n t := by
  induction m generalizing s with
  | zero =>
    simp only [runWith] at h
    cases h
    rw [Nat.zero_add]
  | succ m ih =>
    rw [Nat.succ_add]
    simp only [runWith] at h ⊢
    cases hs : stepWith E s with
    | next u => rw [hs] at h; exact ih h
    | fault r => rw [hs] at h; cases h
    | refused r => rw [hs] at h; cases h

end Sys2Proof.Machine
end

