-- ==== Sys2Proof/Tests/Slice0.lean ====
section
/-! SUPPORT. Tests of single steps and of the encodings, with values from 30_encoding.md and 95_test_vectors.md, and for
every obligation with hypotheses a witness that meets them (`witness_<Name>`). -/

namespace Sys2Proof.Tests

open Sys2Proof Sys2Proof.Machine

/-! ### Helpers -/

/-- The test engine SWX of 95_test_vectors.md: swap the words and XOR. -/
def swx : Engine where
  enc x := (x.2, x.1 ^^^ 0x0F1E2D3C#32)
  dec x := (x.2 ^^^ 0x0F1E2D3C#32, x.1)

/-- `hInv` for SWX. -/
theorem swx_inverseLaw : swx.InverseLaw := by
  intro x
  simp [swx]

/-- The state a result leads to. -/
def after (r : Result) : Option State :=
  match r with
  | .next t => some t
  | .fault _ => none
  | .refused _ => none

/-- ERR and STATUS after a result. -/
def errStatus (r : Result) : Option (Word32 × Word32) := (after r).map (fun t => (errWord t, statusWord t))

/-- The value the last read of a result returned. -/
def lastRead (r : Result) : Option Word32 := (after r).bind (fun t => t.reads.getLast?)

/-- IDLE with the IV 0x0001020304050607 locked and a key ready (95_test_vectors.md section 2.5). -/
def ready : State :=
  { State.reset with iv := 0x0001020304050607#64, ivValid := true, ivHiW := true, ivLoW := true, keyReady := true }

/-- A message in mode `m` is active and `d` is staged (section 2.3). -/
def active (m : Mode) (d : Block) : State :=
  { ready with st := .active, mode := m, chain := 0x0001020304050607#64, din := d }

/-- The block of `active m d` is in flight. -/
def inFlight (m : Mode) (d : Block) : State := issue d false (active m d)

/-- `s` with pending steps `xs`. -/
def pending (xs : List Input) (s : State) : State := { s with inputs := xs }

/-! ### Well-formedness -/

theorem test_wf_refuses_a_count_above_seven : (Instr.finish 8).wf = false := by decide

theorem test_wf_accepts_every_count :
    [0, 1, 2, 3, 4, 5, 6, 7].all (fun nb => (Instr.finish nb).wf) = true := by decide

/-! ### Decoding: words written out from R40, R42 and R45 -/

/-- OP in bits 3..0, NB in bits 6..4. -/
theorem test_decode_command_words :
    [0b0000#32, 0b0001#32, 0b0010#32, 0b0011#32, 0b0100#32, 0b1010101#32, 0b0110#32, 0b0111#32, 0b1000#32].map
        (fun w => decode (.cmdw w)) =
      [.ok .nop, .ok .lockIv, .ok .startEnc, .ok .startDec, .ok .push, .ok (.finish 5), .ok .abort, .ok .clear,
        .ok .clrErr] := by decide

/-- Section 2.5, V-E1 to V-E5c: the illegal words. -/
theorem test_decode_illegal_words :
    [0x00000009#32, 0x0000000F#32, 0x00000010#32, 0x00000014#32, 0x00000085#32, 0x80000005#32, 0xFFFFFFFF#32].map
        decodeCommand = [none, none, none, none, none, none, none] := by decide

/-- `we` in bit 4, `idx` in bits 3..0, each idx the offset divided by 4. -/
theorem test_decode_reads :
    [0b00000#5, 0b00001#5, 0b00010#5, 0b00011#5, 0b00100#5, 0b00101#5, 0b00110#5, 0b00111#5].map
        (fun a => decode (.access a 0)) =
      [.ok .rdId, .ok .rdCmd, .ok .rdStatus, .ok .rdErr, .ok .rdIvHi, .ok .rdIvLo, .ok .rdDinHi, .ok .rdDinLo] ∧
    [0b01000#5, 0b01001#5, 0b01010#5, 0b01011#5, 0b01100#5, 0b01101#5, 0b01110#5, 0b01111#5].map
        (fun a => decode (.access a 0)) =
      [.ok .rdDoutHi, .ok .rdDoutLo, .ok .rdChainHi, .ok .rdChainLo, .ok .rdBlkcnt, .ok .rdRsv34, .ok .rdRsv38,
        .ok .rdRsv3C] := by decide

theorem test_decode_writes :
    [0b10000#5, 0b10001#5, 0b10010#5, 0b10011#5, 0b10100#5, 0b10101#5, 0b10110#5, 0b10111#5].map
        (fun a => decode (.access a 7)) =
      [.ok (.wrRoId 7), .ok (.wrCmd 7), .ok (.wrRoStatus 7), .ok (.wrRoErr 7), .ok (.wrIvHi 7), .ok (.wrIvLo 7),
        .ok (.wrDinHi 7), .ok (.wrDinLo 7)] ∧
    [0b11000#5, 0b11001#5, 0b11010#5, 0b11011#5, 0b11100#5, 0b11101#5, 0b11110#5, 0b11111#5].map
        (fun a => decode (.access a 7)) =
      [.ok (.wrRoDoutHi 7), .ok (.wrRoDoutLo 7), .ok (.wrRoChainHi 7), .ok (.wrRoChainLo 7), .ok (.wrRoBlkcnt 7),
        .ok (.wrRo34 7), .ok (.wrRo38 7), .ok (.wrRo3C 7)] := by decide

/-- The opcode table's numbering: a command word of 32 bits, an 8-bit descriptor, and the data word above it. -/
theorem test_decode_table_words :
    decodeTableWord 32 0x75 = some (.finish 7) ∧ decodeTableWord 8 0x02 = some .rdStatus ∧
      decodeTableWord 40 0xFEDCBA9814 = some (.wrIvHi 0xFEDCBA98#32) ∧ decodeTableWord 8 0x20 = none ∧
      decodeTableWord 32 0x9 = none := by decide

/-! ### The assembler (R46, R47) -/

/-- Program P1, lines 1 to 3 and 5 to 10: descriptors and data words. -/
theorem test_assemble_setiv_and_block :
    assemble (.setiv 0x00010203 0x04050607) =
      some [.line (.access 0x14#5 0x00010203#32), .line (.access 0x15#5 0x04050607#32), .line (.cmdw 0x1#32)] ∧
    assemble (.block 0x31323334 0x35363738) =
      some [.line (.access 0x16#5 0x31323334#32), .line (.access 0x17#5 0x35363738#32), .line (.cmdw 0x4#32), .wait,
        .line (.access 0x08#5 0#32), .line (.access 0x09#5 0#32)] := by decide

/-- Program P4's `last 5`, and what does not assemble (R46, R47). -/
theorem test_assemble_last_and_refusals :
    assemble (.last 5 0x666F7220 0) =
      some [.line (.access 0x16#5 0x666F7220#32), .line (.access 0x17#5 0#32), .line (.cmdw 0x55#32), .wait,
        .line (.access 0x08#5 0#32), .line (.access 0x09#5 0#32)] ∧
    [ScriptLine.last 0 0 0, .cmd "FINISH" (some 8), .cmd "PUSH" (some 1), .cmd "HALT" none, .wr "FOO" 1,
      .wr "DIN_HI" 0x100000000].map assemble = [none, none, none, none, none, none] := by decide

theorem test_register_names_have_no_case :
    assemble (.rd "Dout_hi") = some [.line (.access 0x08#5 0#32)] ∧
      assemble (.wr "cmd" 9) = some [.line (.access 0x11#5 9#32)] := by decide

/-! ### Padding, blocks and CBC (sections 2.1, 2.2, 2.4) -/

theorem test_pad :
    [0, 1, 2, 3, 4, 5, 6, 7].map (pad 0x1122334455667788#64) =
      [0x0000000000000000#64, 0x1100000000000000#64, 0x1122000000000000#64, 0x1122330000000000#64,
        0x1122334400000000#64, 0x1122334455000000#64, 0x1122334455660000#64, 0x1122334455667700#64] := by decide

theorem test_engine_word_order :
    engineCall swx .enc 0x313331373133313F#64 = 0x3133313F3E2D1C0B#64 ∧
      engineCall swx .dec 0x3133313F3E2D1C0B#64 = 0x313331373133313F#64 := by decide

/-- V-ML3 and V-RT2's padded message. -/
theorem test_cbc_encrypt :
    cbcEncrypt swx 0x0001020304050607#64 [0x3132333435363738#64, 0x4142434445464748#64] =
      [0x3133313F3E2D1C0B#64, 0x7B6B5B437F6F5F47#64] ∧
    cbcEncrypt swx 0x0001020304050607#64 [0x3031323334353637#64, 0x3839000000000000#64] =
      [0x303030303F2E1D0C#64, 0x3F2E1D0C07171D0C#64] := by decide

/-- V-BF1 and V-CH9. -/
theorem test_cbc_decrypt :
    cbcDecrypt swx 0x0001020304050607#64 [0xB133313F3E2D1C0B#64, 0x7B6B5B437F6F5F47#64] =
      [0x31323334B5363738#64, 0xC142434445464748#64] ∧
    cbcDecrypt swx 0x0001020304050607#64 [0x303030303F2E1D0C#64, 0x3F2E000000000000#64] =
      [0x3031323334353637#64, 0x3F2E1D0C00001D0C#64] := by decide

/-- The ten bytes "0123456789" of V-CH3. -/
theorem test_message_of_bytes :
    (Message.ofBytes [0x30, 0x31, 0x32, 0x33, 0x34, 0x35, 0x36, 0x37, 0x38, 0x39]).blocks =
      [0x3031323334353637#64, 0x3839000000000000#64] := by decide

/-! ### Completions (section 2.3, 2.8) -/

/-- V-CH1c. -/
theorem test_completion_enc :
    (after (stepWith swx (pending [.engineResponse] (inFlight .enc 0x3132333435363738#64)))).map
        (fun t => (t.dout, t.chain, t.blkcnt, statusWord t)) =
      some (0x3133313F3E2D1C0B#64, 0x3133313F3E2D1C0B#64, 1#32, 0x000001B9#32) := by decide

/-- V-CH2. -/
theorem test_completion_dec :
    (after (stepWith swx (pending [.engineResponse] (inFlight .dec 0x3132333435363738#64)))).map
        (fun t => (t.dout, t.chain, t.blkcnt, statusWord t)) =
      some (0x3A29180735373533#64, 0x3132333435363738#64, 1#32, 0x000001BD#32) := by decide

/-- V-CH7's completion: a padded ciphertext block ends the message (log entry 20 says why V-CH6 is not quoted). -/
theorem test_completion_last :
    (after (stepWith swx (pending [.engineResponse] (issue 0x4142434445464700#64 true (active .dec 0))))).map
        (fun t => (t.dout, t.chain, statusWord t)) =
      some (0x4A59683F45474543#64, 0x4142434445464700#64, 0x000001BC#32) := by decide

theorem test_block_counter_wraps :
    (after (stepWith swx (pending [.engineResponse] { inFlight .enc 0 with blkcnt := 0xFFFFFFFF#32 }))).map
        (fun t => (t.blkcnt, t.outValid, t.errCode)) = some (0#32, true, 0#4) := by decide

/-- Section 2.7: a reset from BUSY leaves STATUS = 0x20. -/
theorem test_reset_from_busy :
    (after (stepWith swx (pending [.rst] (inFlight .enc 0x3132333435363738#64)))).map
        (fun t => (statusWord t, t.chain, t.req, t.ivValid)) = some (0x00000020#32, 0#64, 0#64, false) := by decide

theorem test_wait_in_idle_reads_status :
    lastRead (stepWith swx (pending [.wait] ready)) = some 0x000001A8#32 := by decide

theorem test_cycle_order :
    cycleInputs true true (some (.cmdw 4)) = [.rst] ∧
      cycleInputs false true (some (.cmdw 4)) = [.engineResponse, .line (.cmdw 4)] := by decide

/-! ### Commands (section 2.5) -/

/-- V-E16. -/
theorem test_nop : errStatus (exec .nop (inFlight .enc 0)) = some (0#32, 0x000001AA#32) := by decide

theorem test_lockIv :
    (after (exec .lockIv { State.reset with ivHiW := true, ivLoW := true })).map (fun t => statusWord t) =
      some 0x00000188#32 := by decide

/-- V-E13, V-E14, V-E20. -/
theorem test_lockIv_errors :
    [ready, { State.reset with keyReady := true }, inFlight .enc 0].map (fun s => errStatus (exec .lockIv s)) =
      [some (0x00000107#32, 0x000001E8#32), some (0x00000109#32, 0x00000060#32),
        some (0x00000105#32, 0x000001EA#32)] := by decide

/-- V-C4. -/
theorem test_startEnc :
    (after (exec .startEnc { ready with blkcnt := 9, outValid := true })).map
        (fun t => (t.chain, t.blkcnt, statusWord t)) =
      some (0x0001020304050607#64, 0#32, 0x000001A9#32) := by decide

/-- V-E6, V-E7, V-E15. -/
theorem test_startEnc_errors :
    [{ ready with keyReady := false }, State.reset, inFlight .enc 0].map (fun s => errStatus (exec .startEnc s)) =
      [some (0x00000202#32, 0x000001C8#32), some (0x00000203#32, 0x00000040#32),
        some (0x00000205#32, 0x000001EA#32)] := by decide

/-- V-C5. -/
theorem test_startDec :
    (after (exec .startDec ready)).map (fun t => (t.chain, statusWord t)) =
      some (0x0001020304050607#64, 0x000001AD#32) := by decide

/-- V-E8. -/
theorem test_startDec_in_active :
    errStatus (exec .startDec { active .enc 0 with keyReady := false }) = some (0x00000304#32, 0x000001C9#32) := by
  decide

/-- V-CH1. -/
theorem test_push :
    (after (exec .push (active .enc 0x3132333435363738#64))).map (fun t => (t.hold, t.req, statusWord t)) =
      some (0x3132333435363738#64, 0x313331373133313F#64, 0x000001AA#32) := by decide

/-- V-E9, V-E22. -/
theorem test_push_errors :
    [{ active .enc 0 with keyReady := false }, inFlight .enc 0].map (fun s => errStatus (exec .push s)) =
      [some (0x00000402#32, 0x000001C9#32), some (0x00000405#32, 0x000001EA#32)] := by decide

/-- V-CH5, and V-CH6 before its completion. -/
theorem test_finish :
    (after (exec (.finish 7) (active .enc 0x4142434445464748#64))).map (fun t => (t.hold, t.req, t.st)) =
      some (0x4142434445464700#64, 0x4143414741434107#64, .busyLast) ∧
    (after (exec (.finish 1) (active .dec 0x4142434445464748#64))).map (fun t => (t.hold, t.req, statusWord t)) =
      some (0x4100000000000000#64, 0x4100000000000000#64, 0x000001AF#32) := by decide

/-- V-E10, V-E11, V-E12, V-E23. -/
theorem test_finish_without_a_key :
    errStatus (exec (.finish 0) { active .enc 0 with keyReady := false }) = some (0#32, 0x00000188#32) ∧
      errStatus (exec (.finish 3) { active .enc 0 with keyReady := false }) =
        some (0x00000502#32, 0x000001C9#32) ∧
      errStatus (exec (.finish 0) ready) = some (0x00000504#32, 0x000001E8#32) ∧
      errStatus (exec (.finish 0) (inFlight .enc 0)) = some (0x00000505#32, 0x000001EA#32) := by decide

/-- V-C1, V-C2, V-E18. -/
theorem test_abort :
    [ready, active .enc 0, inFlight .enc 0].map (fun s => errStatus (exec .abort s)) =
      [some (0#32, 0x000001A8#32), some (0#32, 0x000001A8#32), some (0x00000605#32, 0x000001EA#32)] := by decide

/-- V-E25's second line, and V-E19. -/
theorem test_clear :
    [{ active .enc 0 with errCode := 8, errSrc := true, errInfo := 8 }, inFlight .enc 0].map
        (fun s => errStatus (exec .clear s)) =
      [some (0x00000828#32, 0x00000060#32), some (0x00000705#32, 0x000001EA#32)] := by decide

/-- V-C3. -/
theorem test_clrErr :
    errStatus (exec .clrErr { ready with errCode := 2, errMore := true, errInfo := 5 }) =
      some (0#32, 0x000001A8#32) := by decide

/-- V-E24: the first error is kept and MORE is set. -/
theorem test_first_error_is_kept :
    errStatus (exec (.wrRoId 5) (raiseErr .badSequence false 4 ready)) = some (0x00000414#32, 0x000001E8#32) := by
  decide

/-! ### Register reads (section 2.6) and writes -/

/-- Fields with a different value in every half. -/
def distinct : State :=
  { active .enc 0x0011223344556677#64 with dout := 0x8899AABBCCDDEEFF#64, chain := 0x0123456789ABCDEF#64, blkcnt := 42 }

theorem test_reads_after_reset :
    [Instr.rdId, .rdCmd, .rdStatus, .rdErr, .rdIvHi, .rdIvLo, .rdDinHi, .rdDinLo].map
        (fun i => lastRead (exec i State.reset)) =
      [some 0x43424331#32, some 0, some 0, some 0, some 0, some 0, some 0, some 0] ∧
    [Instr.rdDoutHi, .rdDoutLo, .rdChainHi, .rdChainLo, .rdBlkcnt, .rdRsv34, .rdRsv38, .rdRsv3C].map
        (fun i => lastRead (exec i State.reset)) =
      [some 0, some 0, some 0, some 0, some 0, some 0, some 0, some 0] := by decide

theorem test_reads_take_the_right_half :
    [Instr.rdIvHi, .rdIvLo, .rdDinHi, .rdDinLo, .rdDoutHi].map (fun i => lastRead (exec i distinct)) =
      [some 0x00010203#32, some 0x04050607#32, some 0x00112233#32, some 0x44556677#32, some 0x8899AABB#32] ∧
    [Instr.rdDoutLo, .rdChainHi, .rdChainLo, .rdBlkcnt, .rdStatus].map (fun i => lastRead (exec i distinct)) =
      [some 0xCCDDEEFF#32, some 0x01234567#32, some 0x89ABCDEF#32, some 42#32, some 0x000001A9#32] := by decide

theorem test_rdErr_does_not_clear :
    (after (exec .rdErr (raiseErr .ivLocked true 0x14#8 ready))).map (fun t => (t.reads, errWord t)) =
      some ([0x00001427#32], 0x00001427#32) := by decide

/-- A write to CMD acts as the command: V-C4, V-E1, V-E21. -/
theorem test_wrCmd :
    errStatus (exec (.wrCmd 0x2#32) ready) = some (0#32, 0x000001A9#32) ∧
      errStatus (exec (.wrCmd 0x9#32) ready) = some (0x00000906#32, 0x000001E8#32) ∧
      errStatus (exec (.wrCmd 0xA#32) (inFlight .enc 0)) = some (0x00000A06#32, 0x000001EA#32) := by decide

theorem test_wrIv_while_unlocked :
    (after (exec (.wrIvHi 0xFEDCBA98#32) { State.reset with iv := 0x1111111122222222#64 })).map
        (fun t => (t.iv, t.ivHiW, t.ivLoW)) = some (0xFEDCBA9822222222#64, true, false) ∧
    (after (exec (.wrIvLo 0x76543210#32) { State.reset with iv := 0x1111111122222222#64 })).map
        (fun t => (t.iv, t.ivHiW, t.ivLoW)) = some (0x1111111176543210#64, false, true) := by decide

theorem test_wrIv_while_locked :
    errStatus (exec (.wrIvHi 0#32) ready) = some (0x00001027#32, 0x000001E8#32) ∧
      errStatus (exec (.wrIvLo 0#32) ready) = some (0x00001427#32, 0x000001E8#32) := by decide

theorem test_wrDin_in_busy :
    (after (exec (.wrDinHi 0xAAAAAAAA#32) (inFlight .enc 0x3132333435363738#64))).map (fun t => (t.din, t.hold)) =
      some (0xAAAAAAAA35363738#64, 0x3132333435363738#64) ∧
    (after (exec (.wrDinLo 0xBBBBBBBB#32) (inFlight .enc 0x3132333435363738#64))).map (fun t => (t.din, t.hold)) =
      some (0x31323334BBBBBBBB#64, 0x3132333435363738#64) := by decide

/-- Section 2.6's table. -/
theorem test_bad_writes :
    [Instr.wrRoId 1, .wrRoStatus 1, .wrRoErr 1, .wrRoDoutHi 1, .wrRoDoutLo 1, .wrRoChainHi 1].map
        (fun i => (errStatus (exec i ready)).map Prod.fst) =
      [some 0x00000028#32, some 0x00000828#32, some 0x00000C28#32, some 0x00002028#32, some 0x00002428#32,
        some 0x00002828#32] ∧
    [Instr.wrRoChainLo 1, .wrRoBlkcnt 1, .wrRo34 1, .wrRo38 1, .wrRo3C 1].map
        (fun i => (errStatus (exec i ready)).map Prod.fst) =
      [some 0x00002C28#32, some 0x00003028#32, some 0x00003428#32, some 0x00003828#32,
        some 0x00003C28#32] := by decide

/-! ### Fetching -/

/-- The first step after reset runs the placed instruction. -/
theorem test_withFetchWord :
    (after (step (State.reset.withFetchWord 40 0xFEDCBA9814))).map (fun t => (t.iv, t.ivHiW)) =
      some (0xFEDCBA9800000000#64, true) := by decide

/-! ### Witnesses: concrete inputs that meet an obligation's hypotheses

One for every obligation with hypotheses, with each of its clauses at the ends of its range. -/

theorem witness_DecodeOfEncode : (Instr.finish 0).wf = true ∧ (Instr.finish 7).wf = true ∧ Instr.rdId.wf = true := by
  decide

theorem witness_EncodeOfDecode :
    decode (.cmdw 0x75#32) = .ok (.finish 7) ∧ decode (.access 0x02#5 9#32) = .ok .rdStatus ∧
      decode (.access 0x1F#5 9#32) = .ok (.wrRo3C 9#32) := ⟨rfl, rfl, rfl⟩

theorem witness_IllegalWordsAreRefused :
    [0x9#32, 0xF#32, 0x85#32, 0x10#32].map (fun w => decode (.cmdw w)) =
      [0x9#32, 0xF#32, 0x85#32, 0x10#32].map (fun w => .error (.illegalCommand w)) := rfl

theorem witness_StepRunsTheDecodedLine :
    (pending [.line (.cmdw 0x4#32)] State.reset).inputs = .line (.cmdw 0x4#32) :: [] ∧
      decode (.cmdw 0x4#32) = .ok .push ∧ decodeTableWord 32 0x4 = some .push ∧
      decodeTableWord 40 0x1F = some (.wrRo3C 0#32) := ⟨rfl, rfl, rfl, rfl⟩

/-- A bus cycle at word index `idx`. -/
def cycleAt (idx : BitVec 4) (we : Bool) (v : Word32) : BusCycle :=
  { addr := Config.cbcBase + 4 * idx.toNat, width := 32, we := we, wdata := v }

theorem witness_BusCycleIsItsAccess :
    (pending [.bus (cycleAt 0x0#4 false 0)] State.reset).inputs = .bus (cycleAt 0x0#4 false 0) :: [] ∧
      (pending [.bus (cycleAt 0xF#4 true 5)] State.reset).inputs = .bus (cycleAt 0xF#4 true 5) :: [] := ⟨rfl, rfl⟩

/-- A narrow cycle, a misaligned one, and the first address above the window; the fourth clause needs a window that does
not start at address 0. -/
theorem witness_OnlyBadBusCyclesAreRefused :
    (∀ c : BusCycle, (pending [.bus c] State.reset).inputs = .bus c :: []) ∧
      { cycleAt 0 false 0 with width := 8 }.width ≠ 32 ∧
      (({ cycleAt 0 false 0 with addr := Config.cbcBase + 63 } : BusCycle).addr - Config.cbcBase) % 4 ≠ 0 ∧
      Config.cbcBase + 64 ≤ { cycleAt 0 false 0 with addr := Config.cbcBase + 64 }.addr ∧
      (0 < Config.windowSlot → { cycleAt 0 false 0 with addr := Config.cbcBase - 1 }.addr < Config.cbcBase) := by
  refine ⟨fun _ => rfl, by decide, by simp, Nat.le_refl _, fun h => ?_⟩
  simp only [Config.cbcBase, Config.windowBytes]
  omega

/-- The second part, at the window's last word and with no bus cycle pending. -/
theorem witness_OnlyBadBusCyclesAreRefused_next :
    (∀ c rest, (pending [.bus (cycleAt 0xF#4 true 0)] State.reset).inputs = .bus c :: rest →
      c.width = 32 ∧ (c.addr - Config.cbcBase) % 4 = 0 ∧ Config.cbcBase ≤ c.addr ∧ c.addr < Config.cbcBase + 64) ∧
    ∀ c rest, State.reset.inputs ≠ .bus c :: rest := by
  constructor
  · intro c rest h
    have hc : cycleAt 0xF#4 true 0 = c := by simpa [pending] using (List.cons.inj h).1
    subst hc
    simp [cycleAt]
  · simp [State.reset]

/-- An answer, nothing pending, and a `wait`, in both busy states. -/
theorem witness_EncCompletion :
    let s := inFlight .enc 5
    let u := issue 5 true (active .enc 5)
    s.mode = .enc ∧ s.st = .busy ∧ u.mode = .enc ∧ u.st = .busyLast ∧
      (pending [.engineResponse] s).inputs = .engineResponse :: [] ∧
      (pending [.engineResponse] u).inputs = .engineResponse :: [] ∧
      s.inputs = [] ∧ u.inputs = [] ∧
      (pending [.wait] s).inputs = .wait :: [] ∧ (pending [.wait] u).inputs = .wait :: [] := by decide

/-- An answer, nothing pending, and a `wait`, in both busy states. -/
theorem witness_DecCompletion :
    let s := inFlight .dec 5
    let u := issue 5 true (active .dec 5)
    s.mode = .dec ∧ s.st = .busy ∧ u.mode = .dec ∧ u.st = .busyLast ∧
      (pending [.engineResponse] s).inputs = .engineResponse :: [] ∧
      (pending [.engineResponse] u).inputs = .engineResponse :: [] ∧
      s.inputs = [] ∧ u.inputs = [] ∧
      (pending [.wait] s).inputs = .wait :: [] ∧ (pending [.wait] u).inputs = .wait :: [] := by decide

/-- A reset of a block in flight; and one cycle with a completion and a STATUS read. -/
theorem witness_ResetSetsEveryField :
    let s := pending (cycleInputs false true (some (.access 0x02#5 0)) ++ []) (inFlight .enc 5)
    (pending [.rst, .wait] (inFlight .enc 5)).inputs = .rst :: [.wait] ∧
      s.inputs = cycleInputs false true (some (.access 0x02#5 0)) ++ [] ∧ s.st = .busy ∧
      (pending [] (issue 5 true (active .enc 5))).st = .busyLast := by decide

theorem witness_ResetCancelsTheOutstandingRequest :
    (pending [.engineResponse] ready).inputs = .engineResponse :: [] ∧ ready.st = .idle ∧
      (pending [.engineResponse] (active .enc 5)).inputs = .engineResponse :: [] ∧ (active .enc 5).st = .active ∧
      (pending [.rst, .engineResponse] (inFlight .enc 5)).inputs = .rst :: .engineResponse :: [] := by decide

theorem witness_KeyReadyFollowsTheEngine :
    (pending [.keyReady true] State.reset).inputs = .keyReady true :: [] ∧
      (pending [.keyReady false] ready).inputs = .keyReady false :: [] := by decide

theorem witness_WaitReadsStatusOutsideTheBusyStates :
    (pending [.wait] ready).inputs = .wait :: [] ∧ (pending [.wait] ready).st = .idle ∧
      (pending [.wait] (active .dec 0)).st = .active ∧ (pending [.wait] (inFlight .enc 5)).inputs = .wait :: [] ∧
      (pending [.wait] (inFlight .enc 5)).st = .busy ∧
      (pending [.wait] (issue 5 true (active .enc 5))).st = .busyLast := by decide

/-- A legal bus cycle at the window's last word, a `wait` and a PUSH, with a block in flight. -/
theorem witness_EveryRunEnds :
    ∀ c : BusCycle,
      .bus c ∈ (pending [.bus (cycleAt 0xF#4 true 0), .wait, .line (.cmdw 0x4#32)] (inFlight .enc 5)).inputs →
      c.Legal := by
  intro c h
  have hc : c = cycleAt 0xF#4 true 0 := by simpa [pending] using h
  subst hc
  exact ⟨rfl, by simp [cycleAt], by simp [cycleAt], by simp [cycleAt]⟩

/-- Where a run drains: not busy after one step, busy after one step, with nothing pending from the start. -/
theorem witness_EveryRunEnds_last_step :
    runWith swx 1 (pending [.line (.cmdw 0x2#32)] ready) = .next (startMessage .enc ready) ∧
      (startMessage .enc ready).st = .active ∧
      runWith swx 1 (pending [.line (.cmdw 0x4#32)] (active .enc 5)) = .next (inFlight .enc 5) ∧
      (inFlight .enc 5).st = .busy := ⟨rfl, rfl, rfl, rfl⟩

theorem witness_FinishEndsTheMessage : (0 : Nat) < 8 ∧ (7 : Nat) < 8 := by decide

theorem witness_CountAboveSevenDoesNotAssemble : (7 : Nat) < 8 := by decide

theorem witness_ClearEndsTheCipherInstance :
    Instr.wrIvHi 5 ≠ .clear ∧ (∀ w, Instr.wrIvHi 5 = .wrCmd w → w ≠ 0x7#32) ∧ ready.ivValid = true ∧
      exec (.wrIvHi 5) ready = .next (raiseErr .ivLocked true 0x10#8 ready) :=
  ⟨by decide, fun _ h => (nomatch h), rfl, rfl⟩

theorem witness_WriteCmdPerformsTheCommand :
    decodeCommand 0x9#32 = none ∧ decodeCommand 0x75#32 = some (.finish 7) ∧ Command.finish 7 ≠ .nop ∧
      Command.finish 7 ≠ .clrErr ∧ (inFlight .enc 5).st = .busy ∧ (issue 5 true (active .enc 5)).st = .busyLast ∧
      (active .enc 5).st = .active ∧ (active .enc 5).keyReady = true := by decide

theorem witness_FirstErrorIsKept : ready.errCode = 0 ∧ (raiseErr .busy false 1 ready).errCode ≠ 0 := by decide

/-- With no error before, and with one before. -/
theorem witness_RefusalsArePrecise :
    let s := raiseErr .busy false 1 ready
    exec .push (clearErr ready) = .next (raiseErr .badSequence false 4 ready) ∧
      (raiseErr .badSequence false 4 ready).errCode ≠ 0 ∧ ready.errCode = 0 ∧
      exec .push (clearErr s) = .next (raiseErr .badSequence false 4 (clearErr s)) ∧
      (raiseErr .badSequence false 4 (clearErr s)).errCode ≠ 0 ∧ s.errCode ≠ 0 :=
  ⟨rfl, by decide, rfl, rfl, by decide, by decide⟩

theorem witness_KeyAbsentIsRefused :
    let s := { ready with keyReady := false }
    let u := { active .enc 5 with keyReady := false }
    s.keyReady = false ∧ s.st = .idle ∧ s.ivValid = true ∧ u.keyReady = false ∧ u.st = .active ∧ 0 < 1 ∧ 1 < 8 ∧
      0 < 7 ∧ 7 < 8 := by decide

theorem witness_MissingIvIsRefused : State.reset.st = .idle ∧ State.reset.ivValid = false := by decide

theorem witness_OutOfSequenceIsRefused :
    (active .dec 5).st = .active ∧ ready.st = .idle ∧ 0 < 8 ∧ 7 < 8 := by decide

theorem witness_BusyRefusesAllButNopAndClrErr :
    Command.lockIv ≠ .nop ∧ Command.lockIv ≠ .clrErr ∧ Command.clear ≠ .nop ∧ Command.clear ≠ .clrErr ∧
      (inFlight .enc 5).st = .busy ∧ (issue 5 true (active .enc 5)).st = .busyLast := by decide

theorem witness_LockedOrIncompleteIvIsRefused :
    ready.ivValid = true ∧ ready.st = .idle ∧ (active .enc 5).ivValid = true ∧ (active .enc 5).st = .active ∧
      State.reset.ivValid = false ∧ State.reset.ivHiW = false ∧ State.reset.st = .idle ∧
      (setIvHi 5 State.reset).ivValid = false ∧ (setIvHi 5 State.reset).ivLoW = false := by decide

theorem witness_FsmTransitions :
    exec Command.push.toInstr (active .enc 5) = .next (inFlight .enc 5) ∧
      (∀ c : Command, Instr.rdId ≠ c.toInstr) ∧ (∀ w, Instr.rdId ≠ .wrCmd w) ∧
      exec .rdId ready = .next (recordRead 0x43424331#32 ready) := by
  refine ⟨rfl, fun c => ?_, fun w h => (nomatch h), rfl⟩
  cases c <;> exact fun h => (nomatch h)

/-- Each of the four registers is changed by some instruction. -/
theorem witness_DataRegistersHaveOnlyTheirWriters :
    (exec .startEnc ready = .next (startMessage .enc ready) ∧ (startMessage .enc ready).chain ≠ ready.chain) ∧
    (exec (.wrCmd 0x7#32) distinct = .next (clearInstance distinct) ∧ (clearInstance distinct).dout ≠ distinct.dout) ∧
    (exec (.wrDinHi 5) ready = .next (setDinHi 5 ready) ∧ (setDinHi 5 ready).din ≠ ready.din) ∧
    (exec (.wrIvLo 5) State.reset = .next (setIvLo 5 State.reset) ∧ (setIvLo 5 State.reset).iv ≠ State.reset.iv) :=
  ⟨⟨rfl, by decide⟩, ⟨rfl, by decide⟩, ⟨rfl, by decide⟩, ⟨rfl, by decide⟩⟩

theorem witness_BlockInFlightIsUntouchable :
    let u := issue 5 true (active .enc 5)
    (inFlight .enc 5).st = .busy ∧ exec (.wrDinHi 7) (inFlight .enc 5) = .next (setDinHi 7 (inFlight .enc 5)) ∧
      u.st = .busyLast ∧ exec .clear u = .next (raiseErr .busy false 0x07#8 u) := ⟨rfl, rfl, rfl, rfl⟩

/-- A step that keeps the lock, and the steps that end it: reset, CLEAR as a line, and CLEAR as a write to CMD. -/
theorem witness_LockedIvIsImmutable :
    ready.ivValid = true ∧
      stepWith swx (pending [.line (.cmdw 0x2#32)] ready) = .next (startMessage .enc ready) ∧
      stepWith swx (pending [.rst] ready) = .next (resetBlock ready) ∧
      stepWith swx (pending [.line (.cmdw 0x7#32)] ready) = .next (clearInstance ready) ∧
      stepWith swx (pending [.line (.access 0x11#5 0x7#32)] (active .dec 5)) = .next (clearInstance (active .dec 5)) ∧
      (clearInstance ready).ivValid = false ∧ ready.st = .idle ∧ (active .dec 5).st = .active ∧
      Input.hostFrame (.line (.cmdw 0x7#32)) = some (.cmdw 0x7#32) := ⟨rfl, rfl, rfl, rfl, rfl, rfl, rfl, rfl, rfl⟩

theorem witness_HiddenStateIsUnobservable :
    ready.st = .idle ∧ stepWith swx ready = .next ready ∧ (active .enc 5).st = .active ∧
      stepWith swx (pending [.line (.cmdw 0x4#32)] (active .enc 5)) = .next (inFlight .enc 5) := ⟨rfl, rfl, rfl, rfl⟩

/-- The invariants hold of a state with a padded block in flight and an error recorded. -/
theorem witness_EveryStepKeepsTheInvariants :
    let s := raiseErr .badWrite true 0x3C#8 (issue (pad 0x3132333435363738#64 7) true (active .enc 5))
    Invariants s ∧ stepWith swx s = .next (complete swx s) ∧
      step s = .next (complete Config.engine s) := by
  refine ⟨?_, rfl, rfl⟩
  constructor <;> decide

/-- The counter's wrap, and a step after it. -/
theorem witness_ValidOutputWasCounted :
    let s := { inFlight .enc 5 with blkcnt := 0xFFFFFFFF#32 }
    let t := complete swx s
    stepWith swx s = .next t ∧ t.outValid = true ∧ t.blkcnt = 0 ∧ s.st = .busy ∧
      stepWith swx t = .next t := ⟨rfl, rfl, by decide, rfl, rfl⟩

/-- A PUSH, a poll too early, the completion, a poll: the run ends without an error in ACTIVE. -/
theorem witness_StatusPollingSynchronises :
    let evs : List Input := [lineOf .rdStatus, .engineResponse, lineOf .rdStatus]
    let s := pending (lineOf .push :: (evs ++ [])) (active .enc 5)
    let t := recordRead 0x1B9#32 (complete swx (recordRead 0x1AA#32 (inFlight .enc 5)))
    s.errCode = 0 ∧ s.inputs = lineOf .push :: (evs ++ []) ∧ (∀ x ∈ evs, Input.quiet x = true) ∧
      runWith swx (1 + evs.length) s = .next t ∧ t.errCode = 0 ∧ t.st = .active := by
  refine ⟨rfl, rfl, by decide, rfl, rfl, rfl⟩

/-- The same for FINISH at both ends of its range: an answer before the first poll. -/
theorem witness_StatusPollingSynchronises_finish :
    [1, 7].all (fun nb =>
      (after (runWith swx 2 (pending [lineOf (.finish nb), .engineResponse] (active .dec 5)))).any
        (fun t => t.errCode == 0 && t.st == .idle)) = true := by decide

theorem witness_PadKeepsTheFirstBytes : (0 : Nat) < 8 ∧ (7 : Nat) < 8 := by decide

theorem witness_BytesAreBigEndian : ([1, 2, 3, 4, 5, 6, 7, 8] : List Byte).length = 8 := rfl

/-- `ready` meets `Ready`. -/
theorem ready_isReady : Ready ready := ⟨rfl, rfl, rfl⟩

theorem pending_isReady (xs : List Input) : Ready (pending xs ready) := ⟨rfl, rfl, rfl⟩

/-- One full block, answered early, and `nb` bytes more. -/
def oneAnd (nb : Nat) : Message :=
  { full := [(0x3031323334353637#64, true)], nb := nb, last := 0x3839AAAAAAAAAAAA#64, lastEarly := false }

theorem witness_EncryptsAMessage :
    [0, 7].all (fun nb => decide ((oneAnd nb).nb < 8)) = true ∧
      ∀ nb, Ready (pending (messageInputs .enc (oneAnd nb) ++ []) ready) ∧
        (pending (messageInputs .enc (oneAnd nb) ++ []) ready).inputs = messageInputs .enc (oneAnd nb) ++ [] :=
  ⟨by decide, fun _ => ⟨pending_isReady _, rfl⟩⟩

theorem witness_DecryptsAMessage :
    [0, 7].all (fun nb => decide ((oneAnd nb).nb < 8)) = true ∧
      ∀ nb, Ready (pending (messageInputs .dec (oneAnd nb) ++ []) ready) ∧
        (pending (messageInputs .dec (oneAnd nb) ++ []) ready).inputs = messageInputs .dec (oneAnd nb) ++ [] :=
  ⟨by decide, fun _ => ⟨pending_isReady _, rfl⟩⟩

/-- The ciphertext of `oneAnd 2` is V-RT2's. -/
theorem witness_DecryptionInvertsEncryption :
    let back : Message :=
      { full := [(0x303030303F2E1D0C#64, true), (0x3F2E1D0C07171D0C#64, false)], nb := 0, last := 0, lastEarly := false }
    let xs := messageInputs .enc (oneAnd 2) ++ messageInputs .dec back ++ []
    swx.InverseLaw ∧ (oneAnd 2).nb < 8 ∧ Ready (pending xs ready) ∧ back.nb = 0 ∧
      back.full.map Prod.fst = cbcEncrypt swx (pending xs ready).iv (oneAnd 2).blocks ∧ (pending xs ready).inputs = xs :=
  ⟨swx_inverseLaw, by decide, pending_isReady _, rfl, by decide, rfl⟩

/-- V-ML3's ciphertext with a bit of its first block flipped. -/
theorem witness_CiphertextBitFlip :
    let msg : Message :=
      { full := [(0x3133313F3E2D1C0B#64, false), (0x7B6B5B437F6F5F47#64, true)], nb := 0, last := 0, lastEarly := false }
    let s := pending (messageInputs .dec msg) ready
    Ready s ∧ msg.nb = 0 ∧ msg.full[0]? = some (0x3133313F3E2D1C0B#64, false) ∧ 0 + 1 < msg.full.length ∧
      s.inputs = messageInputs .dec msg :=
  ⟨pending_isReady _, rfl, rfl, by decide, rfl⟩

theorem witness_EmptyMessageSendsNothing :
    let xs := [lineOf (startInstr .dec), lineOf (.finish 0)]
    Ready (pending xs ready) ∧ (pending xs ready).inputs = lineOf (startInstr .dec) :: lineOf (.finish 0) :: [] :=
  ⟨pending_isReady _, rfl⟩

theorem witness_PaddingIsAppliedOnce :
    [1, 7].all (fun nb => decide (0 < (oneAnd nb).nb ∧ (oneAnd nb).nb < 8)) = true ∧
      ∀ nb, Ready (pending (messageInputs .enc (oneAnd nb)) ready) ∧
        (pending (messageInputs .enc (oneAnd nb)) ready).inputs = messageInputs .enc (oneAnd nb) :=
  ⟨by decide, fun _ => ⟨pending_isReady _, rfl⟩⟩

end Sys2Proof.Tests
end

section
/-! PROOF. The state's reset values and invariants (10_state.md sections 4 and 5): what each operation of the block does to
`Invariants`, and from that every instruction and every step. -/

namespace Sys2Proof.Machine

/-! ### Reset (R29) -/

theorem invariants_reset : Invariants State.reset := by constructor <;> decide

/-- Settles O48: IDLE, nothing locked and no error recorded. -/
theorem resetMeetsTheInvariants : Obligations.ResetMeetsTheInvariants := invariants_reset

theorem resetBlock_eq_reset (s : State) :
    resetBlock s = { State.reset with keyReady := s.keyReady, inputs := s.inputs, reads := s.reads } := rfl

/-- Of STATUS only KEY_READY is not 0 after a reset (R29). -/
theorem statusWord_resetBlock (s : State) :
    statusWord (resetBlock s) = (BitVec.ofBool s.keyReady).setWidth 32 <<< 5 := by
  have hkey : ∀ k : Bool,
      (0#1 ++ 0#1 ++ 0#1 ++ BitVec.ofBool k ++ 0#1 ++ 0#1 ++ 0#1 ++ 0#2).setWidth 32 =
        (BitVec.ofBool k).setWidth 32 <<< 5 := by decide
  exact hkey s.keyReady

theorem exec_rdStatus_resetBlock (s : State) :
    exec .rdStatus (resetBlock s) =
      .next { resetBlock s with reads := s.reads ++ [(BitVec.ofBool s.keyReady).setWidth 32 <<< 5] } := by
  rw [← statusWord_resetBlock s]
  rfl

/-- Settles O13: a state fresh from reset, whatever `keyReady` is, is the reset block of itself. -/
theorem resetStateIsTheSpecs : Obligations.ResetStateIsTheSpecs := by
  unfold Obligations.ResetStateIsTheSpecs
  refine ⟨rfl, fun k => ?_, fun s => ⟨resetBlock_eq_reset s, exec_rdStatus_resetBlock s⟩⟩
  exact exec_rdStatus_resetBlock { State.reset with keyReady := k }

/-! ### Error codes and padding -/

/-- The one error kind with code 1 is the one this block never raises (R98). -/
theorem ErrKind.code_ne_one {k : ErrKind} (hk : k ≠ .invalidInputType) : k.code ≠ 1 := by
  cases k with
  | invalidInputType => exact absurd rfl hk
  | _ => decide

theorem ErrKind.code_toNat_lt_ten (k : ErrKind) : k.code.toNat < 10 := by cases k <;> decide

/-- Padding after fewer than eight bytes clears the last byte (R48). -/
theorem byteOf_pad_seven (b : Block) {nb : Nat} (h : nb < 8) : byteOf (pad b nb) 7 = 0 := by
  apply BitVec.eq_of_getLsbD_eq
  intro i hi
  have hlow : i < 64 - 8 * nb := by omega
  simp [byteOf, pad, padMask, hlow]

/-! ### Each operation keeps the invariants -/

section
variable {s : State} (h : Invariants s)
include h

theorem invariants_setInputs (rest : List Input) : Invariants (setInputs rest s) := { h with }

theorem invariants_setKeyReady (b : Bool) : Invariants (setKeyReady b s) := { h with }

theorem invariants_recordRead (v : Word32) : Invariants (recordRead v s) := { h with }

theorem invariants_setDinHi (v : Word32) : Invariants (setDinHi v s) := { h with }

theorem invariants_setDinLo (v : Word32) : Invariants (setDinLo v s) := { h with }

theorem invariants_setIvHi (v : Word32) : Invariants (setIvHi v s) :=
  { h with lockedHasHalves := fun hv => ⟨rfl, (h.lockedHasHalves hv).2⟩ }

theorem invariants_setIvLo (v : Word32) : Invariants (setIvLo v s) :=
  { h with lockedHasHalves := fun hv => ⟨(h.lockedHasHalves hv).1, rfl⟩ }

theorem invariants_lockIv (hh : s.ivHiW = true) (hl : s.ivLoW = true) : Invariants (lockIv s) :=
  { h with
    activeHasIv := fun _ => rfl
    lockedHasHalves := fun _ => ⟨hh, hl⟩ }

theorem invariants_startMessage (m : Mode) (hv : s.ivValid = true) : Invariants (startMessage m s) :=
  { h with
    activeHasIv := fun _ => hv
    requestIsIssued := nofun
    lastIsPadded := nofun }

theorem invariants_endMessage : Invariants (endMessage s) :=
  { h with
    activeHasIv := fun hne => absurd rfl hne
    requestIsIssued := nofun
    lastIsPadded := nofun }

theorem invariants_issue (b : Block) (last : Bool) (hs : s.st = .active) (hb : last = true → byteOf b 7 = 0) :
    Invariants (issue b last s) :=
  { h with
    activeHasIv := fun _ => h.activeHasIv (by simp [hs])
    requestIsIssued := fun _ => rfl
    lastIsPadded := fun hl => hb (by simpa using hl) }

theorem invariants_clearInstance : Invariants (clearInstance s) :=
  { invariants_reset with
    noErrorNoFields := h.noErrorNoFields
    onlyRaisedCodes := h.onlyRaisedCodes
    infoFitsSource := h.infoFitsSource }

theorem invariants_clearErr : Invariants (clearErr s) :=
  { h with
    noErrorNoFields := invariants_reset.noErrorNoFields
    onlyRaisedCodes := invariants_reset.onlyRaisedCodes
    infoFitsSource := invariants_reset.infoFitsSource }

/-- The first error writes all of ERR but MORE, a later one MORE only (R96). -/
theorem invariants_raiseErr {k : ErrKind} {src : Bool} {info : BitVec 8} (hk : k ≠ .invalidInputType)
    (hinfo : if src then info.toNat < 64 ∧ info.toNat % 4 = 0 else info.toNat < 16) :
    Invariants (raiseErr k src info s) := by
  by_cases hc : s.errCode = 0
  · rw [raiseErr_of_clear hc]
    exact { h with
      noErrorNoFields := fun h0 => absurd h0 k.code_ne_zero
      onlyRaisedCodes := ⟨ErrKind.code_ne_one hk, k.code_toNat_lt_ten⟩
      infoFitsSource := hinfo }
  · rw [raiseErr_of_pending hc]
    exact { h with noErrorNoFields := fun h0 => absurd h0 hc }

end

theorem complete_isBusy (E : Engine) (s : State) : (complete E s).isBusy = false := by
  rw [isBusy_eq_false_iff, complete_st]
  cases s.st <;> simp [completionSt]

/-- A completion leaves no request outstanding, and a message goes on only where one was active (R54). -/
theorem invariants_complete {s : State} (h : Invariants s) (E : Engine) : Invariants (complete E s) :=
  { h with
    activeHasIv := fun hne => h.activeHasIv fun hs => hne (by simp [hs, completionSt])
    requestIsIssued := fun hb => absurd hb (by simp [complete_isBusy])
    lastIsPadded := fun hl => absurd ((isBusy_iff _).2 (.inr hl)) (by simp [complete_isBusy]) }

theorem invariants_engineRespond {s : State} (h : Invariants s) (E : Engine) : Invariants (engineRespond E s) := by
  unfold engineRespond
  split
  · exact invariants_complete h E
  · exact h

theorem invariants_resetBlock (s : State) : Invariants (resetBlock s) := { invariants_reset with }

/-! ### Every instruction and every step keeps them -/

theorem Effect.invariants {s t : State} (he : Effect s t) (h : Invariants s) : Invariants t := by
  cases he with
  | same => exact h
  | read v => exact invariants_recordRead h v
  | refusedCommand k op hk =>
    have hop : (op.setWidth 8).toNat < 16 := by
      have := op.isLt
      simp; omega
    exact invariants_raiseErr h hk hop
  | refusedWrite k off hk hoff => exact invariants_raiseErr h hk hoff
  | locked _ _ hh hl => exact invariants_lockIv h hh hl
  | started m _ hv _ => exact invariants_startMessage h m hv
  | pushed hs _ => exact invariants_issue h _ false hs nofun
  | finished nb _ h8 hs _ => exact invariants_issue h _ true hs fun _ => byteOf_pad_seven _ h8
  | ended _ => exact invariants_endMessage h
  | cleared _ => exact invariants_clearInstance h
  | errCleared => exact invariants_clearErr h
  | ivHi v _ => exact invariants_setIvHi h v
  | ivLo v _ => exact invariants_setIvLo h v
  | dinHi v => exact invariants_setDinHi h v
  | dinLo v => exact invariants_setDinLo h v

theorem StepEffect.invariants {E : Engine} {s t : State} (he : StepEffect E s t) (h : Invariants s) :
    Invariants t := by
  cases he with
  | host _ _ rest _ _ _ _ he => exact he.invariants (invariants_setInputs h rest)
  | response rest _ => exact invariants_engineRespond (invariants_setInputs h rest) E
  | own _ => exact invariants_engineRespond h E
  | waited rest _ _ => exact invariants_recordRead (invariants_setInputs h rest) _
  | keyed rest b _ => exact invariants_setKeyReady (invariants_setInputs h rest) b
  | reset rest _ => exact invariants_resetBlock _

/-- Settles O49, by the cases of `StepEffect`; the machine's own step is `stepWith` with Config's engine. -/
theorem everyStepKeepsTheInvariants : Obligations.EveryStepKeepsTheInvariants := by
  have hstep : ∀ (E : Engine) (s t : State), Invariants s → stepWith E s = .next t → Invariants t :=
    fun _ _ _ h ht => (stepEffect_of_stepWith_next ht).invariants h
  exact ⟨hstep, hstep Config.engine⟩

/-! ### OUT_VALID and BLKCNT (R30(d)) -/

/-- No instruction sets OUT_VALID, and one that leaves it set leaves BLKCNT as it is. -/
theorem Effect.outValid_blkcnt {s t : State} (he : Effect s t) (hv : t.outValid = true) :
    s.outValid = true ∧ s.blkcnt = t.blkcnt := by
  cases he with
  | same | read | locked | ended | errCleared | ivHi | ivLo | dinHi | dinLo => exact ⟨hv, rfl⟩
  | refusedCommand | refusedWrite => simpa using hv
  | started | pushed | finished | cleared => cases hv

/-- A response leaves OUT_VALID = 1 with BLKCNT = 0 where both were so, or by a completion at the counter's end. -/
theorem engineRespond_outValid_blkcnt {E : Engine} {s : State} (hv : (engineRespond E s).outValid = true)
    (h0 : (engineRespond E s).blkcnt = 0) :
    (s.outValid = true ∧ s.blkcnt = 0) ∨ ((s.st = .busy ∨ s.st = .busyLast) ∧ s.blkcnt = 0xFFFFFFFF#32) := by
  unfold engineRespond at hv h0
  split at h0
  case isTrue hb =>
    rw [complete_blkcnt] at h0
    exact .inr ⟨(isBusy_iff s).1 hb, by bv_omega⟩
  case isFalse hb => exact .inl ⟨by simpa [hb] using hv, h0⟩

/-- Settles O50, by the cases of `StepEffect`: only an engine response can raise OUT_VALID, and it counts the block. -/
theorem validOutputWasCounted : Obligations.ValidOutputWasCounted := by
  intro E s t ht hv h0
  cases stepEffect_of_stepWith_next ht with
  | host _ _ _ _ _ _ _ he =>
    obtain ⟨hs, hcount⟩ := he.outValid_blkcnt hv
    exact .inl ⟨hs, hcount.trans h0⟩
  | response rest _ => exact engineRespond_outValid_blkcnt (s := setInputs rest s) hv h0
  | own _ => exact engineRespond_outValid_blkcnt hv h0
  | waited | keyed => exact .inl ⟨hv, h0⟩
  | reset => cases hv

end Sys2Proof.Machine
end

section
/-! PROOF. Polling STATUS (20_memory.md section 5): between a sent block and its result, accesses to registers other
than CMD, engine responses and changes of the key input leave the block's datapath alone but for the one completion. -/

namespace Sys2Proof.Machine

/-! ### The datapath of a state -/

/-- The registers a completion reads or writes (R52, R53, R54), and all else at its reset value. -/
def State.datapath (s : State) : State :=
  { State.reset with
    st := s.st, mode := s.mode, chain := s.chain, dout := s.dout, outValid := s.outValid, blkcnt := s.blkcnt
    req := s.req, hold := s.hold }

@[simp] theorem datapath_dout (s : State) : s.datapath.dout = s.dout := rfl
@[simp] theorem datapath_outValid (s : State) : s.datapath.outValid = s.outValid := rfl
@[simp] theorem datapath_blkcnt (s : State) : s.datapath.blkcnt = s.blkcnt := rfl
@[simp] theorem datapath_isBusy (s : State) : s.datapath.isBusy = s.isBusy := rfl

@[simp] theorem datapath_raiseErr (k : ErrKind) (src : Bool) (info : BitVec 8) (s : State) :
    (raiseErr k src info s).datapath = s.datapath := by simp [State.datapath]

theorem datapath_complete (E : Engine) (s : State) : (complete E s).datapath = complete E s.datapath := rfl

theorem engineRespond_of_isBusy {s : State} (hb : s.isBusy = true) (E : Engine) : engineRespond E s = complete E s :=
  if_pos hb

theorem engineRespond_of_not_isBusy {s : State} (hb : s.isBusy = false) (E : Engine) : engineRespond E s = s :=
  if_neg (by simp [hb])

theorem datapath_engineRespond (E : Engine) (s : State) :
    (engineRespond E s).datapath = engineRespond E s.datapath := by
  cases hb : s.isBusy with
  | true => rw [engineRespond_of_isBusy hb, engineRespond_of_isBusy (s := s.datapath) hb, datapath_complete]
  | false => rw [engineRespond_of_not_isBusy hb, engineRespond_of_not_isBusy (s := s.datapath) hb]

/-- After one response the block is not busy. -/
theorem engineRespond_isBusy (E : Engine) (s : State) : (engineRespond E s).isBusy = false := by
  cases hb : s.isBusy with
  | true => rw [engineRespond_of_isBusy hb, complete_isBusy]
  | false => rwa [engineRespond_of_not_isBusy hb]

/-- A second response has no effect (R118). -/
theorem engineRespond_engineRespond (E : Engine) (s : State) :
    engineRespond E (engineRespond E s) = engineRespond E s :=
  engineRespond_of_not_isBusy (engineRespond_isBusy E s) E

@[simp] theorem engineRespond_errCode (E : Engine) (s : State) : (engineRespond E s).errCode = s.errCode := by
  unfold engineRespond; split <;> rfl

@[simp] theorem engineRespond_inputs (E : Engine) (s : State) : (engineRespond E s).inputs = s.inputs := by
  unfold engineRespond; split <;> rfl

/-! ### Accesses to registers other than CMD -/

/-- A read, or a write to an offset other than CMD's (R73, R90 to R94). -/
def offCmd (i : Instr) : Bool :=
  match i with
  | .nop | .lockIv | .startEnc | .startDec | .push | .finish _ | .abort | .clear | .clrErr | .wrCmd _ => false
  | _ => true

theorem decodeAccess_offCmd {a : Descriptor} (ha : a ≠ 0x11#5) (v : Word32) : offCmd (decodeAccess a v) = true := by
  have hcmd : ∀ d : Descriptor, accessWe d = true → (accessIdx d).toNat = 1 → d = 0x11#5 := by decide
  unfold decodeAccess
  split
  case isTrue hwe =>
    unfold decodeWrite
    split
    case h_2 hidx => exact absurd (hcmd a hwe hidx) ha
    all_goals rfl
  case isFalse =>
    unfold decodeRead
    split <;> rfl

/-- What such an access leaves of the block: the datapath, the pending steps, and an error once recorded. -/
structure AccessFrame (s t : State) : Prop where
  inputs : t.inputs = s.inputs
  errCode : t.errCode = 0 → s.errCode = 0
  datapath : t.datapath = s.datapath

theorem accessFrame_raiseErr (k : ErrKind) (src : Bool) (info : BitVec 8) (s : State) :
    AccessFrame s (raiseErr k src info s) where
  inputs := raiseErr_inputs k src info s
  errCode h := absurd h (raiseErr_errCode_ne_zero k src info s)
  datapath := datapath_raiseErr k src info s

theorem exec_offCmd {i : Instr} (hi : offCmd i = true) (s : State) : ∃ t, exec i s = .next t ∧ AccessFrame s t := by
  cases i with
  | nop | lockIv | startEnc | startDec | push | finish | abort | clear | clrErr | wrCmd => cases hi
  | rdId | rdCmd | rdStatus | rdErr | rdIvHi | rdIvLo | rdDinHi | rdDinLo | rdDoutHi | rdDoutLo | rdChainHi
  | rdChainLo | rdBlkcnt | rdRsv34 | rdRsv38 | rdRsv3C => exact ⟨_, rfl, rfl, id, rfl⟩
  | wrDinHi | wrDinLo => exact ⟨_, rfl, rfl, id, rfl⟩
  | wrIvHi v =>
    cases hv : s.ivValid with
    | true => exact ⟨_, by simp [exec, execWrIvHi, refuseWrite, hv], accessFrame_raiseErr .ivLocked true 0x10#8 s⟩
    | false => exact ⟨setIvHi v s, by simp [exec, execWrIvHi, hv], rfl, id, rfl⟩
  | wrIvLo v =>
    cases hv : s.ivValid with
    | true => exact ⟨_, by simp [exec, execWrIvLo, refuseWrite, hv], accessFrame_raiseErr .ivLocked true 0x14#8 s⟩
    | false => exact ⟨setIvLo v s, by simp [exec, execWrIvLo, hv], rfl, id, rfl⟩
  | wrRoId | wrRoStatus | wrRoErr | wrRoDoutHi | wrRoDoutLo | wrRoChainHi | wrRoChainLo | wrRoBlkcnt | wrRo34
  | wrRo38 | wrRo3C => exact ⟨_, rfl, accessFrame_raiseErr _ _ _ s⟩

/-! ### Quiet steps -/

/-- What quiet steps do to the block: no error goes away, and the datapath takes at most one response's completion. -/
structure QuietEffect (E : Engine) (s t : State) : Prop where
  errCode : t.errCode = 0 → s.errCode = 0
  datapath : t.datapath = s.datapath ∨ t.datapath = engineRespond E s.datapath

theorem QuietEffect.refl (E : Engine) (s : State) : QuietEffect E s s := ⟨id, .inl rfl⟩

theorem QuietEffect.trans {E : Engine} {s t u : State} (h : QuietEffect E s t) (k : QuietEffect E t u) :
    QuietEffect E s u where
  errCode := h.errCode ∘ k.errCode
  datapath := by
    obtain hk | hk := k.datapath <;> obtain hd | hd := h.datapath <;> rw [hk, hd]
    · exact .inl rfl
    · exact .inr rfl
    · exact .inr rfl
    · exact .inr (engineRespond_engineRespond E s.datapath)

theorem stepWith_quiet {E : Engine} {s t : State} {x : Input} {rest : List Input} (hin : s.inputs = x :: rest)
    (hq : x.quiet = true) (h : stepWith E s = .next t) : t.inputs = rest ∧ QuietEffect E s t := by
  rw [stepWith_cons hin] at h
  cases x with
  | line f =>
    cases f with
    | cmdw w => cases hq
    | access a v =>
      have ha : a ≠ 0x11#5 := by simpa [Input.quiet] using hq
      obtain ⟨u, hu, hf⟩ := exec_offCmd (decodeAccess_offCmd ha v) (setInputs rest s)
      rw [takeInput, hostLine_of_decode (i := decodeAccess a v) rfl, hu] at h
      cases h
      exact ⟨hf.inputs, hf.errCode, .inl hf.datapath⟩
  | engineResponse =>
    cases h
    refine ⟨engineRespond_inputs E _, ?_, .inr (datapath_engineRespond E (setInputs rest s))⟩
    rw [engineRespond_errCode]
    exact id
  | keyReady b => cases h; exact ⟨rfl, id, .inl rfl⟩
  | bus | wait | rst => cases hq

theorem runWith_succ_next {E : Engine} {n : Nat} {s t : State} (h : runWith E (n + 1) s = .next t) :
    ∃ u, stepWith E s = .next u ∧ runWith E n u = .next t := by
  rw [runWith] at h
  split at h
  · exact ⟨_, ‹_›, h⟩
  · cases h
  · cases h

theorem runWith_quiet {E : Engine} {evs rest : List Input} {s t : State} (hin : s.inputs = evs ++ rest)
    (hq : ∀ x ∈ evs, x.quiet = true) (h : runWith E evs.length s = .next t) :
    t.inputs = rest ∧ QuietEffect E s t := by
  induction evs generalizing s with
  | nil => cases h; exact ⟨hin, .refl E _⟩
  | cons x evs ih =>
    obtain ⟨u, hu, hrun⟩ := runWith_succ_next h
    obtain ⟨huin, hstep⟩ := stepWith_quiet hin (hq x (by simp)) hu
    obtain ⟨htin, hquiet⟩ := ih huin (fun y hy => hq y (by simp [hy])) hrun
    exact ⟨htin, hstep.trans hquiet⟩

/-! ### The command that sends a block -/

/-- The rule that PUSH and FINISH with NB > 0 share: R107's checks, then the block is issued (R67, R68). -/
def sendRule (op : BitVec 4) (b : Block) (last : Bool) (s : State) : Result :=
  unlessBusy op s <|
    if s.st = .idle then refuseCommand .badSequence op s
    else if !s.keyReady then refuseCommand .uninitializedKey op s
    else .next (issue b last s)

theorem exec_push_eq_sendRule (s : State) : exec .push s = sendRule 0x4#4 s.din false s := rfl

theorem exec_finish_eq_sendRule {nb : Nat} (h0 : 0 < nb) (h8 : nb < 8) (s : State) :
    exec (.finish nb) s = sendRule 0x5#4 (pad s.din nb) true s := by
  have hn : nb ≠ 0 := by omega
  simp [exec, execFinish, sendRule, nbInRange, h8, hn]

/-- All that rule can do: record an error, or issue the block of an active message (R96, R107). -/
theorem sendRule_cases (op : BitVec 4) (b : Block) (last : Bool) (s : State) :
    (∃ k, sendRule op b last s = .next (raiseErr k false (op.setWidth 8) s)) ∨
      s.st = .active ∧ sendRule op b last s = .next (issue b last s) := by
  unfold sendRule unlessBusy refuseCommand
  split
  · exact .inl ⟨_, rfl⟩
  case isFalse hb =>
    split
    · exact .inl ⟨_, rfl⟩
    case isFalse hidle =>
      split
      · exact .inl ⟨_, rfl⟩
      · have hst := (isBusy_eq_false_iff s).1 (by simpa using hb)
        exact .inr ⟨hst.resolve_left hidle, rfl⟩

theorem issue_isBusy (b : Block) (last : Bool) (s : State) : (issue b last s).isBusy = true := by
  rw [isBusy_iff]
  cases last <;> simp

theorem decode_encode_finish {nb : Nat} (h8 : nb < 8) : decode (encode (.finish nb)) = .ok (.finish nb) := by
  interval_cases nb <;> rfl

theorem stepWith_lineOf {s : State} {i : Instr} {rest : List Input} (hin : s.inputs = lineOf i :: rest)
    (hd : decode (encode i) = .ok i) (E : Engine) : stepWith E s = exec i (setInputs rest s) := by
  rw [stepWith_cons hin, lineOf, takeInput, hostLine_of_decode hd]

/-- The step that sends a block runs the rule shared by PUSH and FINISH on that block. -/
theorem stepWith_send {s : State} {send : Instr} {b : Block} {rest : List Input}
    (hsend : (send = .push ∧ b = s.din) ∨ ∃ nb, 0 < nb ∧ nb < 8 ∧ send = .finish nb ∧ b = pad s.din nb)
    (hin : s.inputs = lineOf send :: rest) (E : Engine) :
    ∃ op last, stepWith E s = sendRule op b last (setInputs rest s) := by
  obtain ⟨rfl, rfl⟩ | ⟨nb, h0, h8, rfl, rfl⟩ := hsend
  · exact ⟨0x4#4, false, stepWith_lineOf hin rfl E⟩
  · exact ⟨0x5#4, true, (stepWith_lineOf hin (decode_encode_finish h8) E).trans (exec_finish_eq_sendRule h0 h8 _)⟩

/-- Once a block in flight is no longer busy, the datapath is that of its completion. -/
theorem QuietEffect.datapath_of_completed {E : Engine} {s t : State} (h : QuietEffect E s t) (hs : s.isBusy = true)
    (ht : t.isBusy = false) : t.datapath = (complete E s).datapath := by
  obtain hd | hd := h.datapath
  · have hb := congrArg State.isBusy hd
    simp [hs, ht] at hb
  · rw [hd, engineRespond_of_isBusy (s := s.datapath) hs, datapath_complete]

/-- Settles O51: without an error at the end the command was accepted (every refusal records one, and quiet steps clear
none), and a block no longer busy has had its completion, which no quiet step disturbs. -/
theorem statusPollingSynchronises : Obligations.StatusPollingSynchronises := by
  intro E s t send b evs rest _ hsend hin hq hrun herr hst
  rw [Nat.add_comm] at hrun
  obtain ⟨u, hu, hrun⟩ := runWith_succ_next hrun
  obtain ⟨op, last, hstep⟩ := stepWith_send hsend hin E
  rw [hstep] at hu
  obtain ⟨k, hk⟩ | ⟨hactive, hissue⟩ := sendRule_cases op b last (setInputs (evs ++ rest) s)
  · rw [hk] at hu
    cases hu
    obtain ⟨_, hquiet⟩ := runWith_quiet (raiseErr_inputs ..) hq hrun
    exact absurd (hquiet.errCode herr) (raiseErr_errCode_ne_zero k false _ _)
  rw [hissue] at hu
  cases hu
  obtain ⟨htin, hquiet⟩ := runWith_quiet rfl hq hrun
  have hd := hquiet.datapath_of_completed (issue_isBusy _ _ _) ((isBusy_eq_false_iff t).2 hst)
  have hdout : t.dout = completionOut E (issue b last (setInputs (evs ++ rest) s)) := by
    simpa using congrArg State.dout hd
  refine ⟨hactive, htin, by simpa using congrArg State.outValid hd, by simpa using congrArg State.blkcnt hd, ?_⟩
  cases hm : s.mode with
  | enc => simp [hdout, completionOut, requestOf, hm]
  | dec => simp [hdout, completionOut, requestOf, hm]

end Sys2Proof.Machine
end

section
/-! PROOF. The two encodings (30_encoding.md sections 1 and 2): the command word is its fields put together, so decoding
and encoding a command are inverse; the same for the access descriptor; and from that whole frames and the illegal
words. -/

namespace Sys2Proof.Machine

/-! ### The command word (R40, R42) -/

/-- A FINISH word is w[31:7], NB and OP (R40). -/
theorem cmdAboveNb_append_cmdNb_append_cmdOp (w : Word32) : cmdAboveNb w ++ (cmdNb w ++ cmdOp w) = w := by
  have hlow : cmdNb w ++ cmdOp w = w.extractLsb' 0 7 :=
    BitVec.extractLsb'_append_extractLsb'_eq_extractLsb' (by decide)
  have hall : cmdAboveNb w ++ w.extractLsb' 0 7 = w.extractLsb' 0 32 :=
    BitVec.extractLsb'_append_extractLsb'_eq_extractLsb' (by decide)
  rw [hlow, hall, BitVec.extractLsb'_eq_self]

/-- Every other command word is w[31:4] and OP (R40). -/
theorem cmdAboveOp_append_cmdOp (w : Word32) : cmdAboveOp w ++ cmdOp w = w := by
  have hall : cmdAboveOp w ++ cmdOp w = w.extractLsb' 0 32 :=
    BitVec.extractLsb'_append_extractLsb'_eq_extractLsb' (by decide)
  rw [hall, BitVec.extractLsb'_eq_self]

theorem encodeCommand_finish (nb : BitVec 3) : encodeCommand (.finish nb) = (0 : BitVec 25) ++ (nb ++ 0x5#4) := by
  decide +revert

theorem encodeCommand_of_commandOfOp {op : BitVec 4} {c : Command} (h : commandOfOp op = some c) :
    encodeCommand c = (0 : BitVec 28) ++ op := by
  have hall : ∀ o : BitVec 4, ∀ d ∈ commandOfOp o, encodeCommand d = (0 : BitVec 28) ++ o := by decide
  exact hall op c h

theorem commandOfOp_eq_none_iff (op : BitVec 4) : commandOfOp op = none ↔ 9 ≤ op.toNat ∨ op = 0x5#4 := by
  decide +revert

theorem decodeCommand_encodeCommand (c : Command) : decodeCommand (encodeCommand c) = some c := by
  cases c with
  | finish nb => decide +revert
  | nop | lockIv | startEnc | startDec | push | abort | clear | clrErr => rfl

theorem encodeCommand_of_decodeCommand {w : Word32} {c : Command} (h : decodeCommand w = some c) :
    encodeCommand c = w := by
  unfold decodeCommand at h
  split at h
  case isTrue hop =>
    split at h
    case isTrue hres =>
      cases h
      rw [encodeCommand_finish, ← hop, ← hres, cmdAboveNb_append_cmdNb_append_cmdOp]
    case isFalse => cases h
  case isFalse =>
    split at h
    case isTrue hres => rw [encodeCommand_of_commandOfOp h, ← hres, cmdAboveOp_append_cmdOp]
    case isFalse => cases h

/-- The legal command words are the words of R42's table. -/
theorem decodeCommand_eq_some_iff {w : Word32} {c : Command} : decodeCommand w = some c ↔ encodeCommand c = w :=
  ⟨encodeCommand_of_decodeCommand, fun h => h ▸ decodeCommand_encodeCommand c⟩

/-- R43's illegal words, by the branches of R42's `decode`. -/
theorem decodeCommand_eq_none_iff (w : Word32) :
    decodeCommand w = none ↔
      9 ≤ (cmdOp w).toNat ∨ (cmdOp w = 0x5#4 ∧ cmdAboveNb w ≠ 0) ∨ (cmdOp w ≠ 0x5#4 ∧ cmdAboveOp w ≠ 0) := by
  unfold decodeCommand
  split
  case isTrue hop => simp [hop]
  case isFalse hop =>
    split
    case isTrue hres => simp [hop, hres, commandOfOp_eq_none_iff]
    case isFalse hres => exact iff_of_true rfl (.inr (.inr ⟨hop, hres⟩))

theorem encode_toInstr (c : Command) : encode c.toInstr = .cmdw (encodeCommand c) := by
  cases c with
  | finish nb => decide +revert
  | nop | lockIv | startEnc | startDec | push | abort | clear | clrErr => rfl

/-! ### The access descriptor (R45) -/

theorem ofBool_accessWe_append_accessIdx (a : Descriptor) : BitVec.ofBool (accessWe a) ++ accessIdx a = a := by
  decide +revert

theorem encode_decodeRead (idx : BitVec 4) : encode (decodeRead idx) = readFrame (0#1 ++ idx) := by
  decide +revert

theorem encode_decodeWrite (idx : BitVec 4) (v : Word32) :
    encode (decodeWrite idx v) = .access (1#1 ++ idx) v := by
  obtain ⟨n⟩ := idx
  fin_cases n <;> rfl

/-- A read drops its write data lines (log entry 13). -/
theorem encode_decodeAccess (a : Descriptor) (v : Word32) :
    encode (decodeAccess a v) = (Frame.access a v).canonical := by
  have ha := ofBool_accessWe_append_accessIdx a
  cases hwe : accessWe a with
  | true =>
    have hw : 1#1 ++ accessIdx a = a := by simpa [hwe] using ha
    simp [decodeAccess, Frame.canonical, hwe, encode_decodeWrite, hw]
  | false =>
    have hr : 0#1 ++ accessIdx a = a := by simpa [hwe] using ha
    simp [decodeAccess, Frame.canonical, hwe, encode_decodeRead, readFrame, hr]

/-! ### Whole frames -/

/-- Settles O1, by the cases of the instruction: FINISH's count is in range because the instruction is well-formed, and
every other frame is a row of the tables of R42 and R45. -/
theorem decodeOfEncode : Obligations.DecodeOfEncode := by
  intro i hwf
  cases i with
  | finish nb => exact decode_encode_finish (by simpa [Instr.wf, nbInRange] using hwf)
  | nop | lockIv | startEnc | startDec | push | abort | clear | clrErr => rfl
  | rdId | rdCmd | rdStatus | rdErr | rdIvHi | rdIvLo | rdDinHi | rdDinLo | rdDoutHi | rdDoutLo | rdChainHi
  | rdChainLo | rdBlkcnt | rdRsv34 | rdRsv38 | rdRsv3C => rfl
  | wrCmd | wrIvHi | wrIvLo | wrDinHi | wrDinLo => rfl
  | wrRoId | wrRoStatus | wrRoErr | wrRoDoutHi | wrRoDoutLo | wrRoChainHi | wrRoChainLo | wrRoBlkcnt | wrRo34
  | wrRo38 | wrRo3C => rfl

/-- The converse of `decode_cmdw_of_some`. -/
theorem exists_command_of_decode_cmdw {w : Word32} {i : Instr} (h : decode (.cmdw w) = .ok i) :
    ∃ c, decodeCommand w = some c ∧ i = c.toInstr := by
  cases hc : decodeCommand w with
  | none => simp [decode, hc] at h
  | some c =>
    rw [decode_cmdw_of_some hc] at h
    cases h
    exact ⟨c, rfl, rfl⟩

/-- Settles O2: a command word by `encodeCommand_of_decodeCommand`, an access by `encode_decodeAccess`. -/
theorem encodeOfDecode : Obligations.EncodeOfDecode := by
  intro f i h
  cases f with
  | cmdw w =>
    obtain ⟨c, hc, rfl⟩ := exists_command_of_decode_cmdw h
    exact ⟨toInstr_wf c, by rw [encode_toInstr, encodeCommand_of_decodeCommand hc, Frame.canonical]⟩
  | access a v =>
    cases h
    exact ⟨decodeAccess_wf a v, encode_decodeAccess a v⟩

/-! ### Legal and illegal words (R42, R43) -/

/-- R42's commands: the eight without an operand, and FINISH with each count. -/
def allCommands : List Command :=
  [.nop, .lockIv, .startEnc, .startDec, .push, .abort, .clear, .clrErr] ++
    [0, 1, 2, 3, 4, 5, 6, 7].map .finish

theorem mem_allCommands (c : Command) : c ∈ allCommands := by
  cases c with
  | finish nb =>
    have hnb : nb ∈ [0, 1, 2, 3, 4, 5, 6, 7] := by decide +revert
    exact List.mem_append_right _ (List.mem_map_of_mem hnb)
  | nop | lockIv | startEnc | startDec | push | abort | clear | clrErr => simp [allCommands]

theorem map_encodeCommand_allCommands :
    allCommands.map encodeCommand =
      [0x0#32, 0x1#32, 0x2#32, 0x3#32, 0x4#32, 0x6#32, 0x7#32, 0x8#32] ++
        [0x05#32, 0x15#32, 0x25#32, 0x35#32, 0x45#32, 0x55#32, 0x65#32, 0x75#32] := rfl

/-- Settles O5: the words that decode are the commands' encodings, and the sixteen words are those. -/
theorem exactlySixteenCommandWords : Obligations.ExactlySixteenCommandWords := by
  intro w
  rw [← map_encodeCommand_allCommands]
  simp [decodeCommand_eq_some_iff, mem_allCommands]

theorem decode_cmdw_eq_error_iff (w : Word32) :
    decode (.cmdw w) = .error (.illegalCommand w) ↔ decodeCommand w = none := by
  cases h : decodeCommand w <;> simp [decode, h]

theorem hostLine_cmdw_of_none {w : Word32} (h : decodeCommand w = none) (s : State) :
    hostLine (.cmdw w) s = illegalCommand w s := by
  simp [hostLine, (decode_cmdw_eq_error_iff w).2 h]

/-- Settles O6: the decoder's answer by `decodeCommand_eq_none_iff`; both ways to write such a word to CMD run
`illegalCommand`, which is R103's record. -/
theorem illegalWordsAreRefused : Obligations.IllegalWordsAreRefused := by
  intro w
  rw [decode_cmdw_eq_error_iff]
  exact ⟨decodeCommand_eq_none_iff w, fun h s => ⟨exec_wrCmd_of_none h s, hostLine_cmdw_of_none h s⟩⟩

end Sys2Proof.Machine
end

section
/-! PROOF. Padding and byte messages (40_chaining.md section 1): `pad` byte by byte, the bytes of a packed block, and
from them the blocks of a byte sequence. -/

namespace Sys2Proof.Machine

/-! ### Padding (R48) -/

theorem byteOf_pad (b : Block) {nb k : Nat} (hnb : nb ≤ 8) (hk : k < 8) :
    byteOf (pad b nb) k = if k < nb then byteOf b k else 0 := by
  have hones : ∀ j < 64, (0xFFFFFFFFFFFFFFFF#64).getLsbD j = true := by decide
  apply BitVec.eq_of_getLsbD_eq
  intro i hi
  simp only [byteOf, pad, padMask, BitVec.extractLsb'_and, BitVec.getLsbD_and, BitVec.getLsbD_extractLsb',
    BitVec.getLsbD_shiftLeft]
  split
  case isTrue hkept =>
    have hbit : 56 - 8 * k + i < 64 := by omega
    have hmask : ¬ 56 - 8 * k + i < 64 - 8 * nb := by omega
    rw [hones _ (by omega)]
    simp [hi, hbit, hmask]
  case isFalse hcut =>
    have hmask : 56 - 8 * k + i < 64 - 8 * nb := by omega
    simp [hmask]

theorem pad_zero (b : Block) : pad b 0 = 0 := by simp [pad, padMask]

theorem pad_eight (b : Block) : pad b 8 = b := BitVec.and_allOnes

/-- Settles O52, byte by byte with `byteOf_pad`. -/
theorem padKeepsTheFirstBytes : Obligations.PadKeepsTheFirstBytes := by
  intro b
  exact ⟨fun nb hnb => ⟨rfl, fun k hk => byteOf_pad b hnb.le hk⟩, pad_zero b, pad_eight b⟩

/-! ### Packed bytes (R10) -/

theorem unpack_eq_map_byteOf (b : Block) : unpack b = (List.range 8).map (byteOf b) := rfl

theorem byteOf_pack (m : List Byte) {k : Nat} (hk : k < 8) : byteOf (pack m) k = m.getD k 0 := by
  rw [byteOf, pack, BitVec.extractLsb'_cast]
  interval_cases k <;>
    simp (disch := decide) only [BitVec.extractLsb'_append_eq_of_le, BitVec.extractLsb'_append_eq_of_add_le] <;>
    exact BitVec.extractLsb'_eq_self

/-- Bytes packed, and padded after the last of them, unpack to themselves and zeros (R10, R48). -/
theorem unpack_pad_pack {m : List Byte} (hm : m.length ≤ 8) :
    unpack (pad (pack m) m.length) = m ++ List.replicate (8 - m.length) 0#8 := by
  apply List.ext_getElem
  · simp [unpack_eq_map_byteOf, hm]
  · intro k hk8 _
    have hk : k < 8 := hk8
    by_cases hkm : k < m.length <;>
      simp [unpack_eq_map_byteOf, byteOf_pad _ hm hk, byteOf_pack m hk, List.getElem_append, hkm]

theorem unpack_pack {m : List Byte} (hm : m.length = 8) : unpack (pack m) = m := by
  have h := unpack_pad_pack hm.le
  simpa [hm, pad_eight] using h

/-! ### Byte messages (R49) -/

theorem flatMap_unpack_fullBlocks {n : Nat} {bytes : List Byte} (h : 8 * n ≤ bytes.length) :
    (fullBlocks n bytes).flatMap unpack = bytes.take (8 * n) := by
  induction n generalizing bytes with
  | zero => rfl
  | succ n ih =>
    have hdrop : 8 * n ≤ (bytes.drop 8).length := by rw [List.length_drop]; omega
    have htake : (bytes.take 8).length = 8 := by rw [List.length_take]; omega
    rw [fullBlocks, List.flatMap_cons, unpack_pack htake, ih hdrop, Nat.mul_succ, Nat.add_comm, List.take_add]

theorem map_fst_full_ofBytes (bytes : List Byte) :
    (Message.ofBytes bytes).full.map Prod.fst = fullBlocks (bytes.length / 8) bytes := by
  simp [Message.ofBytes, Function.comp_def]

/-- The blocks of a byte message, by whether a partial block is left. -/
theorem blocks_ofBytes_of_dvd {bytes : List Byte} (h : bytes.length % 8 = 0) :
    (Message.ofBytes bytes).blocks = fullBlocks (bytes.length / 8) bytes := by
  rw [Message.blocks_of_nb_zero h, map_fst_full_ofBytes]

theorem blocks_ofBytes_of_not_dvd {bytes : List Byte} (h : bytes.length % 8 ≠ 0) :
    (Message.ofBytes bytes).blocks =
      fullBlocks (bytes.length / 8) bytes ++
        [pad (pack (bytes.drop (8 * (bytes.length / 8)))) (bytes.length % 8)] := by
  rw [Message.blocks_of_nb_ne_zero h, map_fst_full_ofBytes]
  rfl

theorem length_blocks_ofBytes (bytes : List Byte) :
    (Message.ofBytes bytes).blocks.length = (bytes.length + 7) / 8 := by
  by_cases h : bytes.length % 8 = 0
  · rw [blocks_ofBytes_of_dvd h, fullBlocks_length]
    omega
  · rw [blocks_ofBytes_of_not_dvd h, List.length_append, fullBlocks_length, List.length_singleton]
    omega

theorem flatMap_unpack_blocks_ofBytes (bytes : List Byte) :
    (Message.ofBytes bytes).blocks.flatMap unpack =
      bytes ++ List.replicate ((8 - bytes.length % 8) % 8) 0#8 := by
  have hfull : 8 * (bytes.length / 8) ≤ bytes.length := Nat.mul_div_le _ _
  by_cases h : bytes.length % 8 = 0
  · have hall : 8 * (bytes.length / 8) = bytes.length := Nat.mul_div_cancel' (Nat.dvd_of_mod_eq_zero h)
    rw [blocks_ofBytes_of_dvd h, flatMap_unpack_fullBlocks hfull, hall, h, List.take_length]
    exact (List.append_nil _).symm
  · have htail : (bytes.drop (8 * (bytes.length / 8))).length = bytes.length % 8 := by
      rw [List.length_drop]; omega
    have hpad : (8 - bytes.length % 8) % 8 = 8 - bytes.length % 8 := Nat.mod_eq_of_lt (by omega)
    have hlast := unpack_pad_pack (htail.trans_le (Nat.mod_lt _ (by decide)).le)
    rw [htail] at hlast
    rw [blocks_ofBytes_of_not_dvd h, List.flatMap_append, flatMap_unpack_fullBlocks hfull, List.flatMap_singleton,
      hlast, ← List.append_assoc, List.take_append_drop, hpad]

/-- Settles O54: the full blocks hold the bytes but for the tail, and the padded last block holds the tail and zeros. -/
theorem paddedBlocksHoldThePaddedBytes : Obligations.PaddedBlocksHoldThePaddedBytes := by
  intro bytes
  refine ⟨rfl, ?_, length_blocks_ofBytes bytes, flatMap_unpack_blocks_ofBytes bytes⟩
  rw [← List.length_map Prod.fst, map_fst_full_ofBytes, fullBlocks_length]

end Sys2Proof.Machine
end

section
/-! PROOF. A completion (40_chaining.md sections 2 and 4): however it comes, the step is `complete`. -/

namespace Sys2Proof.Machine

/-- The three ways a completion comes (log entries 1, 5, 6). -/
theorem stepWith_completion {s : State} {rest : List Input}
    (hin : s.inputs = .engineResponse :: rest ∨ (s.inputs = [] ∧ rest = []) ∨
      ((∃ more, s.inputs = .wait :: more) ∧ rest = s.inputs))
    (hb : s.isBusy = true) (E : Engine) : stepWith E s = .next (complete E (setInputs rest s)) := by
  obtain hresp | ⟨hnil, rfl⟩ | ⟨⟨more, hwait⟩, rfl⟩ := hin
  · rw [stepWith_cons hresp]
    exact congrArg Host.Outcome.next (engineRespond_of_isBusy (s := setInputs rest s) hb E)
  · rw [stepWith_nil_of_isBusy hnil hb, ← hnil]
    rfl
  · exact stepWith_wait_of_isBusy hwait hb E

theorem completionSt_of_busy {f : Fsm} (h : f = .busy ∨ f = .busyLast) :
    completionSt f = if f = .busy then .active else .idle := by
  obtain rfl | rfl := h <;> rfl

theorem complete_of_enc {s : State} (hm : s.mode = .enc) (hst : s.st = .busy ∨ s.st = .busyLast) (E : Engine) :
    complete E s = { s with
      dout := engineCall E .enc s.req, chain := engineCall E .enc s.req, blkcnt := s.blkcnt + 1, outValid := true
      st := if s.st = .busy then .active else .idle } := by
  simp only [complete, completionOut, completionChain, hm, completionSt_of_busy hst]

theorem complete_of_dec {s : State} (hm : s.mode = .dec) (hst : s.st = .busy ∨ s.st = .busyLast) (E : Engine) :
    complete E s = { s with
      dout := engineCall E .dec s.req ^^^ s.chain, chain := s.hold, blkcnt := s.blkcnt + 1, outValid := true
      st := if s.st = .busy then .active else .idle } := by
  simp only [complete, completionOut, completionChain, hm, completionSt_of_busy hst]

/-- Settles O10: each of the three ways is `complete`. -/
theorem encCompletion : Obligations.EncCompletion := by
  intro E s rest hm hin hst
  rw [stepWith_completion hin ((isBusy_iff s).2 hst), complete_of_enc (s := setInputs rest s) hm hst]
  rfl

/-- Settles O11: each of the three ways is `complete`. -/
theorem decCompletion : Obligations.DecCompletion := by
  intro E s rest hm hin hst
  rw [stepWith_completion hin ((isBusy_iff s).2 hst), complete_of_dec (s := setInputs rest s) hm hst]
  rfl

end Sys2Proof.Machine
end

section
/-! PROOF. CBC on lists of blocks (40_chaining.md section 5): a list cut in two, the inverse law, and what one ciphertext
block is used in. -/

namespace Sys2Proof.Machine

/-! ### Lists cut in two (R55, R56) -/

theorem getLastD_append (as bs : List Block) (c : Block) :
    (as ++ bs).getLastD c = bs.getLastD (as.getLastD c) := by
  simp [List.getLastD_eq_getLast?]

theorem cbcEncrypt_append (E : Engine) (c : Block) (as bs : List Block) :
    cbcEncrypt E c (as ++ bs) = cbcEncrypt E c as ++ cbcEncrypt E ((cbcEncrypt E c as).getLastD c) bs := by
  induction as generalizing c with
  | nil => rfl
  | cons a as ih => rw [List.cons_append, cbcEncrypt, ih, cbcEncrypt, List.getLastD_cons, List.cons_append]

theorem cbcDecrypt_append (E : Engine) (c : Block) (as bs : List Block) :
    cbcDecrypt E c (as ++ bs) = cbcDecrypt E c as ++ cbcDecrypt E (as.getLastD c) bs := by
  induction as generalizing c with
  | nil => rfl
  | cons a as ih => rw [List.cons_append, cbcDecrypt, ih, cbcDecrypt, List.getLastD_cons, List.cons_append]

theorem cbcOut_append (E : Engine) (m : Mode) (c : Block) (as bs : List Block) :
    cbcOut E m c (as ++ bs) = cbcOut E m c as ++ cbcOut E m (cbcChain E m c as) bs := by
  cases m with
  | enc => exact cbcEncrypt_append E c as bs
  | dec => exact cbcDecrypt_append E c as bs

theorem cbcChain_append (E : Engine) (m : Mode) (c : Block) (as bs : List Block) :
    cbcChain E m c (as ++ bs) = cbcChain E m (cbcChain E m c as) bs := by
  cases m with
  | enc => simp only [cbcChain, cbcEncrypt_append, getLastD_append]
  | dec => exact getLastD_append as bs c

@[simp] theorem cbcOut_length (E : Engine) (m : Mode) (c : Block) (bs : List Block) :
    (cbcOut E m c bs).length = bs.length := by
  cases m <;> simp [cbcOut]

/-! ### The inverse law (R57) -/

/-- Each block is deciphered and XORed with the chain value it was XORed with before it was enciphered. -/
theorem cbcDecrypt_cbcEncrypt {E : Engine} (h : E.InverseLaw) (c : Block) (ps : List Block) :
    cbcDecrypt E c (cbcEncrypt E c ps) = ps := by
  induction ps generalizing c with
  | nil => rfl
  | cons p ps ih => simp [cbcEncrypt, cbcDecrypt, engineCall_dec_enc h, ih]

/-! ### A changed ciphertext block (R58) -/

/-- R56 block by block: the block before number `i` stands at `i` in `c :: cs`. -/
theorem getElem?_cbcDecrypt (E : Engine) (c : Block) (cs : List Block) (i : Nat) :
    (cbcDecrypt E c cs)[i]? = cs[i]?.map (fun x => engineCall E .dec x ^^^ (c :: cs).getD i 0) := by
  induction cs generalizing c i with
  | nil => rfl
  | cons x cs ih =>
    cases i with
    | zero => rfl
    | succ i => exact ih x i

theorem getElem?_cbcDecrypt_set_self {E : Engine} {iv c' : Block} {cs : List Block} {k : Nat} (hk : k < cs.length) :
    (cbcDecrypt E iv (cs.set k c'))[k]? =
      some (engineCall E .dec c' ^^^ (if k = 0 then iv else cs.getD (k - 1) 0)) := by
  rw [getElem?_cbcDecrypt, List.getElem?_set_self hk, Option.map_some]
  cases k with
  | zero => rfl
  | succ k => simp

/-- The block after a changed one takes the change as it is: CBC only XORs the block before it in. -/
theorem getElem?_cbcDecrypt_set_succ {E : Engine} {iv c mask : Block} {cs : List Block} {k : Nat}
    (hk : cs[k]? = some c) :
    (cbcDecrypt E iv (cs.set k (c ^^^ mask)))[k + 1]? = (cbcDecrypt E iv cs)[k + 1]?.map (· ^^^ mask) := by
  obtain ⟨hlen, hc⟩ := List.getElem?_eq_some_iff.1 hk
  rw [getElem?_cbcDecrypt, getElem?_cbcDecrypt, List.getElem?_set_ne k.lt_succ_self.ne, Option.map_map]
  congr 1
  funext x
  simp [hlen, hc, BitVec.xor_assoc]

theorem getElem?_cbcDecrypt_set_ne {E : Engine} {iv c' : Block} {cs : List Block} {k j : Nat} (hj : j ≠ k)
    (hj1 : j ≠ k + 1) : (cbcDecrypt E iv (cs.set k c'))[j]? = (cbcDecrypt E iv cs)[j]? := by
  have hprev : (iv :: cs.set k c').getD j 0 = (iv :: cs).getD j 0 := by
    rw [← List.set_cons_succ, List.getD_eq_getElem?_getD, List.getElem?_set_ne hj1.symm,
      ← List.getD_eq_getElem?_getD]
  rw [getElem?_cbcDecrypt, getElem?_cbcDecrypt, List.getElem?_set_ne hj.symm, hprev]

end Sys2Proof.Machine
end

section
/-! PROOF. Messages presented by the host (40_chaining.md sections 3 and 5). One block, sent and read, is
`runWith_sendBlock`; `Processed` says what a run of blocks does to the state, and composes; from it come a whole message
(`runWith_message`) and the statements about messages. -/

namespace Sys2Proof.Machine

/-! ### The blocks of a message -/

/-- What sending blocks leaves alone, whatever they are: the mode, the IV, the key input and the error fields. -/
def State.context (s : State) : State :=
  { State.reset with
    mode := s.mode, iv := s.iv, ivValid := s.ivValid, ivHiW := s.ivHiW, ivLoW := s.ivLoW, keyReady := s.keyReady
    errCode := s.errCode, errMore := s.errMore, errSrc := s.errSrc, errInfo := s.errInfo }

theorem context_eq_iff {s t : State} :
    t.context = s.context ↔
      t.mode = s.mode ∧ t.iv = s.iv ∧ t.ivValid = s.ivValid ∧ t.ivHiW = s.ivHiW ∧ t.ivLoW = s.ivLoW ∧
        t.errCode = s.errCode ∧ t.errMore = s.errMore ∧ t.errSrc = s.errSrc ∧ t.errInfo = s.errInfo ∧
        t.keyReady = s.keyReady := by
  simp [State.context]

theorem doneStatus_context (m : Mode) (f : Fsm) (s : State) : doneStatus m f s.context = doneStatus m f s := rfl

/-- The effect of blocks `bs` on the block's registers, and the values `vs` that the host reads meanwhile. -/
structure Processed (E : Engine) (bs : List Block) (vs : List Word32) (s t : State) : Prop where
  context : t.context = s.context
  chain : t.chain = cbcChain E s.mode s.chain bs
  dout : t.dout = (cbcOut E s.mode s.chain bs).getLastD s.dout
  blkcnt : t.blkcnt = s.blkcnt + BitVec.ofNat 32 bs.length
  outValid : t.outValid = (s.outValid || decide (bs ≠ []))
  reads : t.reads = s.reads ++ vs

/-- What the host reads while blocks `bs` are processed, each of them leading to `f`. -/
def outputReads (E : Engine) (f : Fsm) (bs : List Block) (s : State) : List Word32 :=
  (cbcOut E s.mode s.chain bs).flatMap (blockReads (doneStatus s.mode f s))

section
variable {E : Engine} {as bs : List Block} {vs ws : List Word32} {s t u : State}

theorem Processed.mode (h : Processed E bs vs s t) : t.mode = s.mode := (context_eq_iff.1 h.context).1

theorem Processed.keyReady (h : Processed E bs vs s t) : t.keyReady = s.keyReady := by
  obtain ⟨-, -, -, -, -, -, -, -, -, hk⟩ := context_eq_iff.1 h.context
  exact hk

theorem Processed.doneStatus (h : Processed E bs vs s t) (m : Mode) (f : Fsm) :
    doneStatus m f t = doneStatus m f s := by
  rw [← doneStatus_context m f t, h.context, doneStatus_context]

theorem Processed.refl (E : Engine) (s : State) : Processed E [] [] s s where
  context := rfl
  chain := by cases hm : s.mode <;> rfl
  dout := by cases hm : s.mode <;> rfl
  blkcnt := (BitVec.add_zero _).symm
  outValid := (Bool.or_false _).symm
  reads := (List.append_nil _).symm

theorem Processed.trans (h : Processed E as vs s t) (k : Processed E bs ws t u) :
    Processed E (as ++ bs) (vs ++ ws) s u where
  context := k.context.trans h.context
  chain := by rw [k.chain, h.mode, h.chain, cbcChain_append]
  dout := by rw [k.dout, h.dout, h.mode, h.chain, cbcOut_append, getLastD_append]
  blkcnt := by rw [k.blkcnt, h.blkcnt, List.length_append, BitVec.ofNat_add, BitVec.add_assoc]
  outValid := by
    rw [k.outValid, h.outValid]
    cases as <;> simp
  reads := by rw [k.reads, h.reads, List.append_assoc]

/-- The blocks `bs` that follow on `as` are read as the last outputs of `as ++ bs`. -/
theorem Processed.outputReads_eq (h : Processed E as vs s t) (f : Fsm) (bs : List Block) :
    outputReads E f bs t =
      (cbcOut E s.mode (cbcChain E s.mode s.chain as) bs).flatMap (blockReads (Machine.doneStatus s.mode f s)) := by
  rw [outputReads, h.mode, h.chain, h.doneStatus]

theorem Processed.outputReads_append (h : Processed E as vs s t) (f : Fsm) (bs : List Block) :
    outputReads E f (as ++ bs) s = outputReads E f as s ++ outputReads E f bs t := by
  rw [h.outputReads_eq, outputReads, cbcOut_append, List.flatMap_append, outputReads]

/-- After a message another one may be started under the same IV (R120). -/
theorem Processed.ready {m : Mode} (h : Processed E bs vs (startMessage m s) t) (hst : t.st = .idle) (hs : Ready s) :
    Ready t := by
  obtain ⟨-, -, hivValid, -, -, -, -, -, -, hkey⟩ := context_eq_iff.1 h.context
  exact ⟨hst, hivValid.trans hs.ivLocked, hkey.trans hs.keyReady⟩

end

/-! ### One block, sent and read (R47) -/

theorem runWith_succ_of_stepWith {E : Engine} {s t : State} (h : stepWith E s = .next t) (n : Nat) :
    runWith E (n + 1) s = runWith E n t := by
  simp [runWith, h]

theorem runWith_trans {E : Engine} {m n : Nat} {s t u : State} (h : runWith E m s = .next t)
    (k : runWith E n t = .next u) : runWith E (m + n) s = .next u := (runWith_add h n).trans k

theorem runWith_line {s t : State} {i : Instr} {rest : List Input} (hin : s.inputs = lineOf i :: rest)
    (hd : decode (encode i) = .ok i) (hx : exec i (setInputs rest s) = .next t) (E : Engine) :
    runWith E 1 s = .next t :=
  runWith_succ_of_stepWith ((stepWith_lineOf hin hd E).trans hx) 0

/-- The host stages the block `b` (R92, R93). -/
theorem runWith_stage {s : State} {b : Block} {rest : List Input}
    (hin : s.inputs = lineOf (.wrDinHi (hiWord b)) :: lineOf (.wrDinLo (loWord b)) :: rest) (E : Engine) :
    runWith E 2 s = .next (setDinLo (loWord b) (setDinHi (hiWord b) (setInputs rest s))) :=
  runWith_trans (runWith_line hin rfl rfl E) (runWith_line rfl rfl rfl E)

theorem stepWith_wait_of_not_isBusy {s : State} {rest : List Input} (hin : s.inputs = .wait :: rest)
    (hb : s.isBusy = false) (E : Engine) :
    stepWith E s = .next (recordRead (statusWord s) (setInputs rest s)) := by
  rw [stepWith_cons hin]
  simp [takeInput, hostWait, hb]

/-- The completion comes before the host's poll or at it, and the poll then reads STATUS (R36, R47). -/
theorem runWith_poll {s : State} {early : Bool} {rest : List Input} (hb : s.isBusy = true)
    (hin : s.inputs = (if early then [.engineResponse] else []) ++ .wait :: rest) (E : Engine) :
    runWith E 2 s = .next (recordRead (statusWord (complete E s)) (setInputs rest (complete E s))) := by
  cases early with
  | true =>
    rw [runWith_succ_of_stepWith (stepWith_completion (.inl hin) hb E),
      runWith_succ_of_stepWith (stepWith_wait_of_not_isBusy rfl (complete_isBusy E _) E)]
    rfl
  | false =>
    rw [runWith_succ_of_stepWith (stepWith_wait_of_isBusy hin hb E),
      runWith_succ_of_stepWith (stepWith_wait_of_not_isBusy (s := complete E s) hin (complete_isBusy E s) E)]
    rfl

/-- The host reads the result (R82, R83). -/
theorem runWith_readDout {s : State} {rest : List Input}
    (hin : s.inputs = lineOf .rdDoutHi :: lineOf .rdDoutLo :: rest) (E : Engine) :
    runWith E 2 s = .next (recordRead (loWord s.dout) (recordRead (hiWord s.dout) (setInputs rest s))) :=
  runWith_trans (runWith_line hin rfl rfl E) (runWith_line rfl rfl rfl E)

/-- In an active message with a key, and with `b` staged, `send` issues `p` (R67, R68). -/
structure Issues (send : Instr) (b p : Block) (last : Bool) : Prop where
  wf : send.wf = true
  exec : ∀ s : State, s.st = .active → s.keyReady = true → s.din = b → exec send s = .next (issue p last s)

theorem sendRule_of_active {s : State} (hst : s.st = .active) (hk : s.keyReady = true) (op : BitVec 4) (p : Block)
    (last : Bool) : sendRule op p last s = .next (issue p last s) := by
  simp [sendRule, unlessBusy, State.isBusy, hst, hk]

theorem issues_push (b : Block) : Issues .push b b false where
  wf := rfl
  exec s hst hk hdin := by rw [exec_push_eq_sendRule, hdin, sendRule_of_active hst hk]

theorem issues_finish {nb : Nat} (h0 : nb ≠ 0) (h8 : nb < 8) (b : Block) :
    Issues (.finish nb) b (pad b nb) true where
  wf := decide_eq_true h8
  exec s hst hk hdin := by
    rw [exec_finish_eq_sendRule (Nat.pos_of_ne_zero h0) h8, hdin, sendRule_of_active hst hk]

theorem cbcOut_singleton (E : Engine) (p : Block) (last : Bool) (s : State) :
    cbcOut E s.mode s.chain [p] = [completionOut E (issue p last s)] := by
  cases hm : s.mode <;> simp [cbcOut, cbcEncrypt, cbcDecrypt, completionOut, requestOf, hm]

theorem cbcChain_singleton (E : Engine) (p : Block) (last : Bool) (s : State) :
    cbcChain E s.mode s.chain [p] = completionChain E (issue p last s) := by
  cases hm : s.mode <;> simp [cbcChain, cbcEncrypt, completionChain, requestOf, hm]

/-- Where the completion of a block leads (R54). -/
def doneSt (last : Bool) : Fsm := if last then .idle else .active

/-- A block from its staging to its acceptance. -/
theorem runWith_request {s : State} {send : Instr} {b p : Block} {last : Bool} {rest : List Input}
    (hi : Issues send b p last) (hst : s.st = .active) (hk : s.keyReady = true)
    (hin : s.inputs = lineOf (.wrDinHi (hiWord b)) :: lineOf (.wrDinLo (loWord b)) :: lineOf send :: rest)
    (E : Engine) :
    runWith E 3 s = .next (issue p last (setInputs rest (setDinLo (loWord b) (setDinHi (hiWord b) s)))) := by
  have hexec := hi.exec (setInputs rest (setDinLo (loWord b) (setDinHi (hiWord b) s))) hst hk (by simp)
  have hsend := runWith_line (s := setDinLo (loWord b) (setDinHi (hiWord b) (setInputs (lineOf send :: rest) s))) rfl
    (decodeOfEncode _ hi.wf) hexec E
  exact runWith_trans (runWith_stage hin E) hsend

/-- A block in flight from its completion to the reading of its result. -/
theorem runWith_answer {s : State} {early : Bool} {rest : List Input} (hb : s.isBusy = true)
    (hin : s.inputs = (if early then [.engineResponse] else []) ++
      .wait :: lineOf .rdDoutHi :: lineOf .rdDoutLo :: rest) (E : Engine) :
    runWith E 4 s = .next { setInputs rest (complete E s) with
      reads := s.reads ++ blockReads (statusWord (complete E s)) (completionOut E s) } := by
  have hreads : ∀ x y z : Word32, s.reads ++ [x, y, z] = s.reads ++ [x] ++ [y] ++ [z] := by simp
  rw [blockReads, hreads]
  exact runWith_trans (runWith_poll hb hin E) (runWith_readDout rfl E)

theorem outputReads_nil (E : Engine) (f : Fsm) (s : State) : outputReads E f [] s = [] := by
  unfold outputReads
  cases s.mode <;> rfl

theorem outputReads_singleton (E : Engine) (p : Block) (last : Bool) (s : State) :
    outputReads E (doneSt last) [p] s =
      blockReads (statusWord (complete E (issue p last s))) (completionOut E (issue p last s)) := by
  rw [outputReads, cbcOut_singleton E p last s, List.flatMap_singleton]
  cases last <;> rfl

/-- One block from its staging to the reading of its result, whenever the engine answers. -/
theorem runWith_sendBlock {s : State} {send : Instr} {b p : Block} {last early : Bool} {rest : List Input}
    (hi : Issues send b p last) (hst : s.st = .active) (hk : s.keyReady = true)
    (hin : s.inputs = sendBlock send b early ++ rest) (E : Engine) :
    ∃ t, runWith E 7 s = .next t ∧ t.inputs = rest ∧ t.st = doneSt last ∧
      Processed E [p] (outputReads E (doneSt last) [p] s) s t := by
  have hrequest := runWith_request hi hst hk (by simpa [sendBlock] using hin) E
  refine ⟨_, runWith_trans hrequest (runWith_answer (issue_isBusy _ _ _) rfl E), rfl, ?_, ?_⟩
  · cases last <;> rfl
  · exact {
      context := rfl
      chain := (cbcChain_singleton E p last s).symm
      dout := by rw [cbcOut_singleton E p last s]; rfl
      blkcnt := rfl
      outValid := by simp
      reads := by rw [outputReads_singleton]; rfl }

/-! ### Whole messages -/

theorem runWith_pushes {full : List (Block × Bool)} {s : State} {rest : List Input} (hst : s.st = .active)
    (hk : s.keyReady = true) (hin : s.inputs = full.flatMap (fun p => sendBlock .push p.1 p.2) ++ rest)
    (E : Engine) :
    ∃ t, runWith E (7 * full.length) s = .next t ∧ t.inputs = rest ∧ t.st = .active ∧
      Processed E (full.map Prod.fst) (outputReads E .active (full.map Prod.fst) s) s t := by
  induction full generalizing s with
  | nil => exact ⟨s, rfl, hin, hst, by simpa [outputReads_nil] using Processed.refl E s⟩
  | cons p full ih =>
    rw [List.flatMap_cons, List.append_assoc] at hin
    obtain ⟨u, hu, huin, hust, hup⟩ := runWith_sendBlock (issues_push p.1) hst hk hin E
    obtain ⟨t, ht, htin, htst, htp⟩ := ih hust (hup.keyReady.trans hk) huin
    refine ⟨t, ?_, htin, htst, ?_⟩
    · rw [List.length_cons, Nat.mul_succ, Nat.add_comm]
      exact runWith_trans hu ht
    · rw [List.map_cons, ← List.singleton_append, hup.outputReads_append]
      exact hup.trans htp

/-- The block that FINISH sends, if it sends one (R68). -/
def Message.tail (msg : Message) : List Block := if msg.nb = 0 then [] else [pad msg.last msg.nb]

theorem Message.blocks_eq (msg : Message) : msg.blocks = msg.full.map Prod.fst ++ msg.tail := rfl

theorem runWith_finish {msg : Message} {s : State} {rest : List Input} (h8 : msg.nb < 8) (hst : s.st = .active)
    (hk : s.keyReady = true) (hin : s.inputs = finishInputs msg ++ rest) (E : Engine) :
    ∃ t, runWith E (if msg.nb = 0 then 1 else 7) s = .next t ∧ t.inputs = rest ∧ t.st = .idle ∧
      Processed E msg.tail (outputReads E .idle msg.tail s) s t := by
  by_cases h0 : msg.nb = 0
  · rw [finishInputs_of_nb_zero h0] at hin
    have hexec : exec (.finish 0) (setInputs rest s) = .next (endMessage (setInputs rest s)) := by
      simp [exec, execFinish, nbInRange, unlessBusy, State.isBusy, hst]
    rw [if_pos h0, Message.tail, if_pos h0, outputReads_nil]
    exact ⟨_, runWith_line hin rfl hexec E, rfl, rfl, { Processed.refl E s with }⟩
  · rw [finishInputs_of_nb_ne_zero h0] at hin
    rw [if_neg h0, Message.tail, if_neg h0]
    exact runWith_sendBlock (issues_finish h0 h8 msg.last) hst hk hin E

theorem exec_startInstr {s : State} (h : Ready s) (m : Mode) : exec (startInstr m) s = .next (startMessage m s) := by
  cases m <;> simp [startInstr, exec, execStartEnc, execStartDec, startCommand, unlessBusy, State.isBusy, h.idle,
    h.ivLocked, h.keyReady]

theorem ready_setInputs {s : State} (h : Ready s) (rest : List Input) : Ready (setInputs rest s) := { h with }

theorem runWith_start {m : Mode} {s : State} {rest : List Input} (h : Ready s)
    (hin : s.inputs = lineOf (startInstr m) :: rest) (E : Engine) :
    runWith E 1 s = .next (startMessage m (setInputs rest s)) :=
  runWith_line hin (decodeOfEncode _ (by cases m <;> rfl)) (exec_startInstr (ready_setInputs h rest) m) E

theorem messageReads_eq (E : Engine) (m : Mode) (msg : Message) (s : State) :
    messageReads E m msg s =
      (cbcOut E m s.iv (msg.full.map Prod.fst)).flatMap (blockReads (doneStatus m .active s)) ++
        (cbcOut E m (cbcChain E m s.iv (msg.full.map Prod.fst)) msg.tail).flatMap
          (blockReads (doneStatus m .idle s)) := by
  have hlen : (cbcOut E m s.iv (msg.full.map Prod.fst)).length = msg.full.length := by simp
  rw [messageReads, msg.blocks_eq, cbcOut_append, List.take_left' hlen, List.drop_left' hlen]

/-- A whole message, from START to its end: from the state that START leaves, its blocks are processed, and the host
reads `messageReads`. -/
theorem runWith_message {m : Mode} {msg : Message} {s : State} {rest : List Input} (h8 : msg.nb < 8) (h : Ready s)
    (hin : s.inputs = messageInputs m msg ++ rest) (E : Engine) :
    ∃ t, runWith E (messageSteps msg) s = .next t ∧ t.inputs = rest ∧ t.st = .idle ∧
      Processed E msg.blocks (messageReads E m msg s) (startMessage m s) t := by
  rw [messageInputs, List.cons_append, List.append_assoc] at hin
  generalize hbody : msg.full.flatMap (fun p => sendBlock .push p.1 p.2) ++ (finishInputs msg ++ rest) = body at hin
  obtain ⟨u, hu, huin, hust, hup⟩ :=
    runWith_pushes (s := startMessage m (setInputs body s)) rfl h.keyReady hbody.symm E
  obtain ⟨t, ht, htin, htst, htp⟩ := runWith_finish h8 hust (hup.keyReady.trans h.keyReady) huin E
  refine ⟨t, ?_, htin, htst, ?_⟩
  · rw [messageSteps]
    exact runWith_trans (runWith_trans (runWith_start h hin E) hu) ht
  · have hall := hup.trans htp
    rw [hup.outputReads_eq] at hall
    rw [messageReads_eq]
    exact { hall with }

/-- The registers after a message (R18, R22, R54 to R56). -/
theorem runWith_message_fields (m : Mode) {E : Engine} {msg : Message} {s : State} {rest : List Input}
    (h8 : msg.nb < 8) (h : Ready s) (hin : s.inputs = messageInputs m msg ++ rest) :
    ∃ t, runWith E (messageSteps msg) s = .next t ∧ t.inputs = rest ∧
      t.reads = s.reads ++ messageReads E m msg s ∧
      t.st = .idle ∧ t.mode = m ∧ t.blkcnt = BitVec.ofNat 32 msg.blocks.length ∧
      t.chain = cbcChain E m s.iv msg.blocks ∧
      t.dout = (cbcOut E m s.iv msg.blocks).getLastD s.dout ∧
      t.outValid = decide (msg.blocks ≠ []) ∧ t.iv = s.iv ∧ t.ivValid = true ∧ t.keyReady = true ∧
      t.errCode = s.errCode ∧ t.errMore = s.errMore ∧ t.errSrc = s.errSrc ∧ t.errInfo = s.errInfo := by
  obtain ⟨t, ht, htin, htst, htp⟩ := runWith_message h8 h hin E
  obtain ⟨hmode, hiv, hivValid, -, -, hcode, hmore, hsrc, hinfo, hkey⟩ := context_eq_iff.1 htp.context
  exact ⟨t, ht, htin, htp.reads, htst, hmode, htp.blkcnt.trans (BitVec.zero_add _), htp.chain, htp.dout,
    htp.outValid.trans (Bool.false_or _), hiv, hivValid.trans h.ivLocked, hkey.trans h.keyReady, hcode, hmore, hsrc,
    hinfo⟩

/-- Settles O55: `runWith_message_fields` in ENC mode. -/
theorem encryptsAMessage : Obligations.EncryptsAMessage :=
  fun _ _ _ _ h8 h hin => runWith_message_fields .enc h8 h hin

/-- Settles O56: `runWith_message_fields` in DEC mode. -/
theorem decryptsAMessage : Obligations.DecryptsAMessage :=
  fun _ _ _ _ h8 h hin => runWith_message_fields .dec h8 h hin

/-! ### Two messages -/

theorem messageReads_of_nb_zero {msg : Message} (h0 : msg.nb = 0) (E : Engine) (m : Mode) (s : State) :
    messageReads E m msg s = (cbcOut E m s.iv msg.blocks).flatMap (blockReads (doneStatus m .active s)) := by
  have hnil : cbcOut E m (cbcChain E m s.iv (msg.full.map Prod.fst)) [] = [] := by cases m <;> rfl
  rw [messageReads_eq, Message.tail, if_pos h0, hnil, Message.blocks_of_nb_zero h0]
  exact List.append_nil _

/-- Settles O57: the second message starts from the IV of the first, and `cbcDecrypt_cbcEncrypt` undoes it. -/
theorem decryptionInvertsEncryption : Obligations.DecryptionInvertsEncryption := by
  intro E msg back s rest hinv h8 h hnb hback hin
  rw [List.append_assoc] at hin
  obtain ⟨t, ht, htin, htst, htp⟩ := runWith_message h8 h hin E
  obtain ⟨u, hu, huin, hust, hup⟩ :=
    runWith_message (by rw [hnb]; decide) (htp.ready htst h) htin E
  obtain ⟨-, hiv, -⟩ := context_eq_iff.1 htp.context
  have hstatus : doneStatus .dec .active t = doneStatus .dec .active s := htp.doneStatus .dec .active
  have hout : cbcOut E .dec t.iv back.blocks = msg.blocks := by
    rw [Message.blocks_of_nb_zero hnb, hback, hiv]
    exact cbcDecrypt_cbcEncrypt hinv s.iv msg.blocks
  refine ⟨u, runWith_trans ht hu, huin, hust, hup.reads.trans ?_⟩
  rw [messageReads_of_nb_zero hnb, hout, hstatus]
  exact congrArg (· ++ _) htp.reads

/-- What a host reads of a decryption of full blocks. -/
theorem runWith_decryptBlocks {msg : Message} {s : State} (h0 : msg.nb = 0) (h : Ready s)
    (hin : s.inputs = messageInputs .dec msg) (E : Engine) :
    ∃ t, runWith E (messageSteps msg) s = .next t ∧
      t.reads = s.reads ++
        (cbcDecrypt E s.iv (msg.full.map Prod.fst)).flatMap (blockReads (doneStatus .dec .active s)) := by
  obtain ⟨t, ht, -, -, htp⟩ := runWith_message (by rw [h0]; decide) h (hin.trans (List.append_nil _).symm) E
  refine ⟨t, ht, htp.reads.trans ?_⟩
  rw [messageReads_of_nb_zero h0, Message.blocks_of_nb_zero h0]
  rfl

/-- Settles O58: block `k` of the ciphertext is deciphered into output `k`, XORed into output `k + 1`, and used in no
other. -/
theorem ciphertextBitFlip : Obligations.CiphertextBitFlip := by
  intro E s s' msg k c mask early h h0 hk hk1 hin hs'
  have hkc : (msg.full.map Prod.fst)[k]? = some c := by rw [List.getElem?_map, hk, Option.map_some]
  have hlen : k < (msg.full.map Prod.fst).length := (List.getElem?_eq_some_iff.1 hkc).1
  have hsteps : messageSteps { msg with full := msg.full.set k (c ^^^ mask, early) } = messageSteps msg := by
    simp [messageSteps]
  obtain ⟨t, ht, htr⟩ := runWith_decryptBlocks h0 h hin E
  obtain ⟨t', ht', htr'⟩ := runWith_decryptBlocks (s := s')
    (msg := { msg with full := msg.full.set k (c ^^^ mask, early) }) h0 (hs' ▸ ready_setInputs h _) (by rw [hs']) E
  rw [hsteps] at ht'
  rw [hs', List.map_set] at htr'
  exact ⟨t, t', _, _, ht, ht', htr, htr', by simp, by simp, getElem?_cbcDecrypt_set_succ hkc,
    getElem?_cbcDecrypt_set_self hlen, fun j hj hj1 => getElem?_cbcDecrypt_set_ne hj hj1⟩

/-! ### Small messages -/

/-- Settles O59: START, and FINISH with no block left. -/
theorem emptyMessageSendsNothing : Obligations.EmptyMessageSendsNothing := by
  intro E m s rest h hin
  exact runWith_trans (runWith_start h hin E) (runWith_line rfl rfl rfl E)

/-- The message with its zero padding appended: its partial block is a full one. -/
def Message.prepadded (msg : Message) (early : Bool) : Message :=
  ⟨msg.full ++ [(pad msg.last msg.nb, early)], 0, 0, false⟩

theorem blocks_prepadded {msg : Message} (h0 : msg.nb ≠ 0) (early : Bool) :
    (msg.prepadded early).blocks = msg.blocks := by
  rw [Message.blocks_of_nb_ne_zero h0, Message.blocks_of_nb_zero rfl, Message.prepadded, List.map_append]
  rfl

theorem messageSteps_prepadded {msg : Message} (h0 : msg.nb ≠ 0) (early : Bool) :
    messageSteps (msg.prepadded early) = messageSteps msg + 1 := by
  simp only [messageSteps, Message.prepadded, List.length_append, List.length_singleton, if_pos, if_neg h0]
  omega

/-- Only the last STATUS tells the two messages apart: the padded block leads to IDLE, and the same block, pushed, to
ACTIVE. -/
theorem exists_messageReads_prepadded {msg : Message} (h0 : msg.nb ≠ 0) (early : Bool) (E : Engine) (m : Mode)
    (s : State) :
    ∃ (outs : List Block) (out : Block),
      messageReads E m msg s =
        outs.flatMap (blockReads (doneStatus m .active s)) ++ blockReads (doneStatus m .idle s) out ∧
      messageReads E m (msg.prepadded early) s =
        outs.flatMap (blockReads (doneStatus m .active s)) ++ blockReads (doneStatus m .active s) out := by
  obtain ⟨out, hout⟩ :
      ∃ out, cbcOut E m (cbcChain E m s.iv (msg.full.map Prod.fst)) [pad msg.last msg.nb] = [out] :=
    List.length_eq_one_iff.1 (cbcOut_length ..)
  refine ⟨cbcOut E m s.iv (msg.full.map Prod.fst), out, ?_, ?_⟩
  · rw [messageReads_eq, Message.tail, if_neg h0, hout, List.flatMap_singleton]
  · rw [messageReads_of_nb_zero rfl, blocks_prepadded h0, Message.blocks_of_nb_ne_zero h0, cbcOut_append, hout,
      List.flatMap_append, List.flatMap_singleton]

/-- Settles O60: both messages have the same blocks, so by `runWith_message` they differ in their reads only. -/
theorem paddingIsAppliedOnce : Obligations.PaddingIsAppliedOnce := by
  intro E m msg early s s' h hpos h8 hin hs'
  have h0 : msg.nb ≠ 0 := Nat.ne_of_gt hpos
  have hin' : s'.inputs = messageInputs m (msg.prepadded early) ++ [] := by rw [hs', List.append_nil]; rfl
  obtain ⟨outs, out, hreads, hreads'⟩ := exists_messageReads_prepadded h0 early E m s
  obtain ⟨t, ht, -, htst, htp⟩ := runWith_message h8 h (hin.trans (List.append_nil _).symm) E
  obtain ⟨t', ht', -, htst', htp'⟩ :=
    runWith_message (s := s') (by decide : 0 < 8) (hs' ▸ ready_setInputs h _) hin' E
  rw [messageSteps_prepadded h0] at ht'
  rw [blocks_prepadded h0, hs'] at htp'
  refine ⟨t, t', outs, out, ht, ht', ?_, ?_, htp'.chain.trans htp.chain.symm, htp'.blkcnt.trans htp.blkcnt.symm,
    htst', htst⟩
  · rw [List.append_assoc, ← hreads]
    exact htp.reads
  · rw [List.append_assoc, ← hreads']
    exact htp'.reads

end Sys2Proof.Machine
end

section
/-! PROOF. The nine commands (41_commands.md): the whole next state of each, by the rules that START_ENC and START_DEC,
and PUSH and FINISH, share; from these a write to CMD and the transition table. -/

namespace Sys2Proof.Machine

/-! ### The rules that commands share -/

theorem unlessBusy_of_busy {s : State} (h : s.st = .busy ∨ s.st = .busyLast) (op : BitVec 4) (rule : Result) :
    unlessBusy op s rule = .next (raiseErr .busy false (op.setWidth 8) s) :=
  if_pos ((isBusy_iff s).2 h)

/-- R62's order: BUSY before the command's own rule. -/
theorem unlessBusy_eq_next {rule : Result} {t : State} (h : rule = .next t) (op : BitVec 4) (s : State) :
    unlessBusy op s rule = .next (
      if s.st = .busy ∨ s.st = .busyLast then raiseErr .busy false (op.setWidth 8) s else t) := by
  split
  case isTrue hbusy => exact unlessBusy_of_busy hbusy op rule
  case isFalse hbusy => rw [unlessBusy, if_neg (mt (isBusy_iff s).1 hbusy), h]

/-- START_ENC and START_DEC, in R107's order. -/
theorem startCommand_eq_next (m : Mode) (op : BitVec 4) (s : State) :
    startCommand m op s = .next (
      if s.st = .busy ∨ s.st = .busyLast then raiseErr .busy false (op.setWidth 8) s
      else if s.st = .active then raiseErr .badSequence false (op.setWidth 8) s
      else if s.ivValid = false then raiseErr .noIv false (op.setWidth 8) s
      else if s.keyReady = false then raiseErr .uninitializedKey false (op.setWidth 8) s
      else startMessage m s) := by
  apply unlessBusy_eq_next
  simp only [refuseCommand, Bool.not_eq_true', ← apply_ite Host.Outcome.next]

/-- PUSH, and FINISH with NB > 0, in R107's order. -/
theorem sendRule_eq_next (op : BitVec 4) (b : Block) (last : Bool) (s : State) :
    sendRule op b last s = .next (
      if s.st = .busy ∨ s.st = .busyLast then raiseErr .busy false (op.setWidth 8) s
      else if s.st = .idle then raiseErr .badSequence false (op.setWidth 8) s
      else if s.keyReady = false then raiseErr .uninitializedKey false (op.setWidth 8) s
      else issue b last s) := by
  apply unlessBusy_eq_next
  simp only [refuseCommand, Bool.not_eq_true', ← apply_ite Host.Outcome.next]

theorem requestOf_eq_ite (m : Mode) (b chain : Block) :
    requestOf m b chain = if m = .enc then b ^^^ chain else b := by
  cases m <;> rfl

theorem issue_eq (b : Block) (last : Bool) (s : State) :
    issue b last s = { s with
      hold := b
      req := if s.mode = .enc then b ^^^ s.chain else b
      outValid := false
      st := if last then .busyLast else .busy } := by
  rw [issue, requestOf_eq_ite]

/-! ### Each command (R63 to R71) -/

/-- Settles O18: NOP's meaning is the state itself. -/
theorem nopChangesNothing : Obligations.NopChangesNothing := fun _ => rfl

/-- Settles O27: CLR_ERR's meaning is `clearErr`, with no check before it. -/
theorem clrErrClearsOnlyTheErrorState : Obligations.ClrErrClearsOnlyTheErrorState := fun _ => rfl

/-- Settles O19: R62's BUSY check, then LOCK_IV's own rule by its cases. -/
theorem lockIvLocksAWrittenIv : Obligations.LockIvLocksAWrittenIv := by
  intro s
  apply unlessBusy_eq_next
  cases s.ivValid with
  | true => rfl
  | false => cases hhi : s.ivHiW <;> cases hlo : s.ivLoW <;> simp [refuseCommand, lockIv, hhi, hlo]

/-- Settles O20: `startCommand` in ENC mode. -/
theorem startEncBeginsAMessage : Obligations.StartEncBeginsAMessage := startCommand_eq_next .enc 0x2#4

/-- Settles O21: `startCommand` in DEC mode. -/
theorem startDecBeginsAMessage : Obligations.StartDecBeginsAMessage := startCommand_eq_next .dec 0x3#4

/-- Settles O22: the rule that sends a block, on DIN as it is. -/
theorem pushIssuesTheStagedBlock : Obligations.PushIssuesTheStagedBlock := by
  intro s
  rw [exec_push_eq_sendRule, sendRule_eq_next, issue_eq]
  rfl

/-- Settles O23: NB = 0 only ends the message; NB > 0 is the rule that sends a block, on DIN padded. -/
theorem finishEndsTheMessage : Obligations.FinishEndsTheMessage := by
  intro nb s h8
  by_cases h0 : nb = 0
  · subst h0
    apply unlessBusy_eq_next
    exact (apply_ite Host.Outcome.next ..).symm
  · rw [exec_finish_eq_sendRule (Nat.pos_of_ne_zero h0) h8, sendRule_eq_next, issue_eq, if_neg h0]
    rfl

/-- Settles O25: R62's BUSY check, then ABORT's own rule. -/
theorem abortEndsTheActiveMessage : Obligations.AbortEndsTheActiveMessage := by
  intro s
  apply unlessBusy_eq_next
  exact (apply_ite Host.Outcome.next ..).symm

theorem exec_clear_eq_next (s : State) :
    exec .clear s = .next (
      if s.st = .busy ∨ s.st = .busyLast then raiseErr .busy false 0x07#8 s else clearInstance s) :=
  unlessBusy_eq_next rfl 0x7#4 s

/-! ### A write to CMD (R62, R89) -/

/-- Every command but NOP and CLR_ERR makes R62's BUSY check, under its own opcode. -/
theorem exec_toInstr_of_busy {c : Command} {s : State} (hnop : c ≠ .nop) (hclr : c ≠ .clrErr)
    (hb : s.st = .busy ∨ s.st = .busyLast) :
    exec c.toInstr s = .next (raiseErr .busy false ((cmdOp (encodeCommand c)).setWidth 8) s) := by
  cases c with
  | nop => exact absurd rfl hnop
  | clrErr => exact absurd rfl hclr
  | lockIv | startEnc | startDec | push | abort | clear => exact unlessBusy_of_busy hb _ _
  | finish nb =>
    have hop : cmdOp (encodeCommand (.finish nb)) = 0x5#4 := by decide +revert
    rw [hop]
    exact (finishEndsTheMessage nb.toNat s nb.isLt).trans (congrArg Host.Outcome.next (if_pos hb))

/-- Settles O28: an illegal word, or the decoded command, which always answers a next state. -/
theorem writeCmdPerformsTheCommand : Obligations.WriteCmdPerformsTheCommand := by
  refine ⟨fun w s => ⟨fun h => exec_wrCmd_of_none h s, fun c h => ?_⟩, fun s => ⟨rfl, rfl⟩, fun s hst hk => ?_⟩
  · obtain ⟨t, ht, -⟩ := exec_effect (toInstr_wf c) s
    rw [exec_wrCmd_of_some h]
    refine ⟨rfl, ⟨t, ht⟩, fun hnop hclr hb => ?_⟩
    rw [exec_toInstr_of_busy hnop hclr hb, encodeCommand_of_decodeCommand h]
    rfl
  · rw [exec_wrCmd_of_some (c := .push) rfl]
    exact (pushIssuesTheStagedBlock s).trans (by simp [hst, hk])

/-! ### The transition table (R72) -/

theorem eq_of_next {r : Result} {t u : State} (ht : r = .next t) (hu : r = .next u) : t = u :=
  Host.Outcome.next.inj (ht.symm.trans hu)

/-- An instruction is a command, a write to CMD, or an access to another register. -/
theorem command_or_wrCmd_or_offCmd {i : Instr} (hwf : i.wf = true) :
    (∃ c : Command, i = c.toInstr) ∨ (∃ w, i = .wrCmd w) ∨ offCmd i = true := by
  cases i with
  | nop => exact .inl ⟨.nop, rfl⟩
  | lockIv => exact .inl ⟨.lockIv, rfl⟩
  | startEnc => exact .inl ⟨.startEnc, rfl⟩
  | startDec => exact .inl ⟨.startDec, rfl⟩
  | push => exact .inl ⟨.push, rfl⟩
  | finish nb =>
    have h8 : nb < 8 := by simpa [Instr.wf, nbInRange] using hwf
    exact .inl ⟨.finish (BitVec.ofNatLT nb h8), rfl⟩
  | abort => exact .inl ⟨.abort, rfl⟩
  | clear => exact .inl ⟨.clear, rfl⟩
  | clrErr => exact .inl ⟨.clrErr, rfl⟩
  | wrCmd w => exact .inr (.inl ⟨w, rfl⟩)
  | _ => exact .inr (.inr rfl)

@[simp] theorem datapath_st (s : State) : s.datapath.st = s.st := rfl

theorem exec_offCmd_st {i : Instr} {s t : State} (hi : offCmd i = true) (h : exec i s = .next t) : t.st = s.st := by
  obtain ⟨u, hu, hf⟩ := exec_offCmd hi s
  rw [eq_of_next h hu]
  simpa using congrArg State.st hf.datapath

/-- A START moves the FSM from IDLE only, with the IV locked and the key ready (R65, R66). -/
theorem startCommand_st {m : Mode} {op : BitVec 4} {s t : State} (h : startCommand m op s = .next t) :
    t.st = if s.st = .idle ∧ s.ivValid = true ∧ s.keyReady = true then .active else s.st := by
  rw [eq_of_next h (startCommand_eq_next m op s)]
  cases hst : s.st with
  | idle => cases s.ivValid <;> cases s.keyReady <;> simp [hst]
  | active | busy | busyLast => simp [hst]

/-- Settles O43: the `st` of each command's next state, in each of the four states; an access to another register leaves
the datapath alone. -/
theorem fsmTransitions : Obligations.FsmTransitions := by
  refine ⟨fun c s t h => ?_, fun i s t hc hw h => ?_⟩
  · cases c with
    | nop | clrErr => cases h; cases hst : s.st <;> simp [hst]
    | lockIv =>
      rw [eq_of_next h (lockIvLocksAWrittenIv s)]
      cases hst : s.st <;> simp [hst, apply_ite State.st]
    | startEnc => cases hst : s.st <;> simp [startCommand_st (m := .enc) h, hst]
    | startDec => cases hst : s.st <;> simp [startCommand_st (m := .dec) h, hst]
    | push =>
      rw [eq_of_next h (pushIssuesTheStagedBlock s)]
      cases hst : s.st <;> cases s.keyReady <;> simp [hst]
    | finish nb =>
      have h0 : nb.toNat = 0 ↔ nb = 0 := BitVec.toNat_inj (y := 0#3)
      rw [eq_of_next h (finishEndsTheMessage nb.toNat s nb.isLt)]
      cases hst : s.st <;> cases s.keyReady <;> simp [hst, h0, apply_ite State.st]
    | abort =>
      rw [eq_of_next h (abortEndsTheActiveMessage s)]
      cases hst : s.st <;> simp [hst]
    | clear =>
      rw [eq_of_next h (exec_clear_eq_next s)]
      cases hst : s.st <;> simp [hst]
  · obtain ⟨c, hi⟩ | ⟨w, hi⟩ | hi := command_or_wrCmd_or_offCmd (wf_of_exec_next h)
    · exact absurd hi (hc c)
    · exact absurd hi (hw w)
    · exact exec_offCmd_st hi h

end Sys2Proof.Machine
end

section
/-! PROOF. A locked IV (10_state.md section 2): what each instruction and each step leaves of it; only CLEAR and reset
unlock it. -/

namespace Sys2Proof.Machine

/-! ### Instructions (R17, R70) -/

/-- CLEAR's next state apart, an instruction leaves a locked IV as it is. -/
theorem Effect.lockedIv {s t : State} (he : Effect s t) (hv : s.ivValid = true) :
    (t.iv = s.iv ∧ t.ivValid = true) ∨ (s.isBusy = false ∧ t = clearInstance s) := by
  cases he with
  | cleared hb => exact .inr ⟨hb, rfl⟩
  | locked _ h | ivHi _ h | ivLo _ h => exact absurd (hv.symm.trans h) (by decide)
  | refusedCommand | refusedWrite => simp [hv]
  | same | read | started | pushed | finished | ended | errCleared | dinHi | dinLo => exact .inl ⟨rfl, hv⟩

theorem exec_toInstr_lockedIv {c : Command} {s t : State} (hc : c ≠ .clear) (hv : s.ivValid = true)
    (h : exec c.toInstr s = .next t) : t.iv = s.iv ∧ t.ivValid = true := by
  cases c
  case clear => exact absurd rfl hc
  case nop | clrErr => cases h; exact ⟨rfl, hv⟩
  case' lockIv => rw [eq_of_next h (lockIvLocksAWrittenIv s)]
  case' startEnc => rw [eq_of_next h (startEncBeginsAMessage s)]
  case' startDec => rw [eq_of_next h (startDecBeginsAMessage s)]
  case' push => rw [eq_of_next h (pushIssuesTheStagedBlock s)]
  case' finish nb => rw [eq_of_next h (finishEndsTheMessage nb.toNat s nb.isLt)]
  case' abort => rw [eq_of_next h (abortEndsTheActiveMessage s)]
  all_goals simp [apply_ite State.iv, apply_ite State.ivValid, hv]

theorem exec_offCmd_lockedIv {i : Instr} {s t : State} (hi : offCmd i = true) (hv : s.ivValid = true)
    (h : exec i s = .next t) : t.iv = s.iv ∧ t.ivValid = true := by
  cases i with
  | nop | lockIv | startEnc | startDec | push | finish | abort | clear | clrErr | wrCmd => cases hi
  | rdId | rdCmd | rdStatus | rdErr | rdIvHi | rdIvLo | rdDinHi | rdDinLo | rdDoutHi | rdDoutLo | rdChainHi
  | rdChainLo | rdBlkcnt | rdRsv34 | rdRsv38 | rdRsv3C | wrDinHi | wrDinLo => cases h; exact ⟨rfl, hv⟩
  | wrIvHi | wrIvLo => rw [eq_of_next h (if_pos hv)]; simp [hv]
  | wrRoId | wrRoStatus | wrRoErr | wrRoDoutHi | wrRoDoutLo | wrRoChainHi | wrRoChainLo | wrRoBlkcnt | wrRo34
  | wrRo38 | wrRo3C => cases h; simp [hv]

/-- Only CLEAR, as an instruction or as the word 7 written to CMD, changes or unlocks a locked IV (R70). -/
theorem exec_lockedIv {i : Instr} {s t : State} (hclear : i ≠ .clear) (hword : ∀ w, i = .wrCmd w → w ≠ 0x7#32)
    (hv : s.ivValid = true) (h : exec i s = .next t) : t.iv = s.iv ∧ t.ivValid = true := by
  obtain ⟨c, rfl⟩ | ⟨w, rfl⟩ | hi := command_or_wrCmd_or_offCmd (wf_of_exec_next h)
  · exact exec_toInstr_lockedIv (fun hc => hclear (congrArg Command.toInstr hc)) hv h
  · cases hd : decodeCommand w with
    | none =>
      rw [eq_of_next h (exec_wrCmd_of_none hd s)]
      simp [hv]
    | some c =>
      have hc : c ≠ .clear := fun hc => hword w rfl (by rw [← encodeCommand_of_decodeCommand hd, hc]; rfl)
      exact exec_toInstr_lockedIv hc hv ((exec_wrCmd_of_some hd s).symm.trans h)
  · exact exec_offCmd_lockedIv hi hv h

/-- Settles O26: CLEAR's whole next state, and `exec_lockedIv`. -/
theorem clearEndsTheCipherInstance : Obligations.ClearEndsTheCipherInstance :=
  ⟨exec_clear_eq_next, fun _ _ _ hclear hword hv h => exec_lockedIv hclear hword hv h⟩

/-! ### Every step (R70, R117) -/

theorem eq_cmdw_of_decode_clear {f : Frame} (h : decode f = .ok .clear) : f = .cmdw 0x7#32 := by
  obtain ⟨-, hf⟩ := encodeOfDecode f _ h
  cases f with
  | cmdw w => exact hf.symm
  | access a v => cases hf

theorem eq_access_of_decode_wrCmd {f : Frame} {w : Word32} (h : decode f = .ok (.wrCmd w)) :
    f = .access 0x11#5 w := by
  obtain ⟨-, hf⟩ := encodeOfDecode f _ h
  cases f with
  | cmdw w => cases hf
  | access a v =>
    obtain ⟨rfl, rfl⟩ := Frame.access.inj hf
    rfl

/-- The host's CLEAR: the command word 7, as a command line or as a write to CMD. -/
def IsClearFrame (f : Frame) : Prop := f = .cmdw 0x7#32 ∨ f = .access 0x11#5 0x7#32

theorem hostLine_lockedIv {f : Frame} {s t : State} (hf : ¬ IsClearFrame f) (hv : s.ivValid = true)
    (h : hostLine f s = .next t) : t.iv = s.iv ∧ t.ivValid = true := by
  cases hd : decode f with
  | error e =>
    obtain ⟨w⟩ := e
    rw [hostLine, hd] at h
    cases h
    simp [hv]
  | ok i =>
    rw [hostLine_of_decode hd] at h
    refine exec_lockedIv ?_ ?_ hv h
    · rintro rfl
      exact hf (.inl (eq_cmdw_of_decode_clear hd))
    · rintro _ rfl rfl
      exact hf (.inr (eq_access_of_decode_wrCmd hd))

theorem engineRespond_lockedIv (E : Engine) (s : State) :
    (engineRespond E s).iv = s.iv ∧ (engineRespond E s).ivValid = s.ivValid := by
  unfold engineRespond; split <;> exact ⟨rfl, rfl⟩

/-- Settles O46, by the cases of `StepEffect`: of the host's frames only CLEAR's can change a locked IV, and what it then
does is `clearInstance`, outside the busy states. -/
theorem lockedIvIsImmutable : Obligations.LockedIvIsImmutable := by
  intro E s t hv h
  cases stepEffect_of_stepWith_next h with
  | host x f rest _ hin hx ht he =>
    by_cases hf : IsClearFrame f
    · obtain hkept | ⟨hb, rfl⟩ := he.lockedIv hv
      · exact .inl hkept.symm
      · have hclear := hf.imp (congrArg some) (congrArg some)
        rw [← hx] at hclear
        exact .inr ⟨rfl, rfl, rfl, x, rest, hin, .inr ⟨(isBusy_eq_false_iff s).1 hb, hclear⟩⟩
    · exact .inl (hostLine_lockedIv (s := setInputs rest s) hf hv ht).symm
  | response rest _ =>
    obtain ⟨hiv, hvalid⟩ := engineRespond_lockedIv E (setInputs rest s)
    exact .inl ⟨hvalid.trans hv, hiv⟩
  | own _ =>
    obtain ⟨hiv, hvalid⟩ := engineRespond_lockedIv E s
    exact .inl ⟨hvalid.trans hv, hiv⟩
  | waited | keyed => exact .inl ⟨hv, rfl⟩
  | reset rest hin => exact .inr ⟨rfl, rfl, rfl, .rst, rest, hin, .inl rfl⟩

end Sys2Proof.Machine
end

section
/-! PROOF. The register accesses (42_register_access.md): the whole next state of each read and of each write but CMD's. -/

namespace Sys2Proof.Machine

/-! ### Reads (R73 to R87) -/

/-- R73: a read's one effect is on the values the host has read. -/
theorem hostRead_eq_next (v : Word32) (s : State) : hostRead v s = .next { s with reads := s.reads ++ [v] } := rfl

/-- Settles O36: a read of `statusWord`, whose MODE and STATE fields are numbered by the cases of `mode` and `st`. -/
theorem statusReadsTheFlags : Obligations.StatusReadsTheFlags := by
  intro s
  refine (hostRead_eq_next (statusWord s) s).trans ?_
  unfold statusWord
  cases s.mode <;> cases s.st <;> rfl

/-- Settles O37: a read of `errWord`. -/
theorem errReadsTheErrorFields : Obligations.ErrReadsTheErrorFields := fun s => hostRead_eq_next (errWord s) s

/-- Settles O38: a read of a register's `hiWord` or `loWord`, or of BLKCNT. -/
theorem dataRegistersReadTheirHalves : Obligations.DataRegistersReadTheirHalves := fun s =>
  ⟨hostRead_eq_next (hiWord s.iv) s, hostRead_eq_next (loWord s.iv) s,
    hostRead_eq_next (hiWord s.din) s, hostRead_eq_next (loWord s.din) s,
    hostRead_eq_next (hiWord s.dout) s, hostRead_eq_next (loWord s.dout) s,
    hostRead_eq_next (hiWord s.chain) s, hostRead_eq_next (loWord s.chain) s, hostRead_eq_next s.blkcnt s⟩

/-- Settles O39: a read of the identification word, or of 0. -/
theorem constantRegistersRead : Obligations.ConstantRegistersRead := fun s =>
  ⟨hostRead_eq_next Config.idWord s, hostRead_eq_next 0 s, hostRead_eq_next 0 s, hostRead_eq_next 0 s,
    hostRead_eq_next 0 s⟩

/-! ### Writes (R90 to R94) -/

/-- A write that only an unlocked IV accepts (R90, R91). -/
theorem ivWrite_eq_next (off : BitVec 8) (s t : State) :
    (if s.ivValid then refuseWrite .ivLocked off s else .next t) =
      .next (if s.ivValid = true then raiseErr .ivLocked true off s else t) :=
  (apply_ite Host.Outcome.next ..).symm

/-- Settles O40: IV_HI's and IV_LO's writes make one check, then set their half. -/
theorem ivWritesSetTheirHalf : Obligations.IvWritesSetTheirHalf := fun v s =>
  ⟨ivWrite_eq_next 0x10#8 s (setIvHi v s), ivWrite_eq_next 0x14#8 s (setIvLo v s)⟩

/-- Settles O41: DIN's writes have no check; their meanings are `setDinHi` and `setDinLo`. -/
theorem dinWritesSetTheirHalf : Obligations.DinWritesSetTheirHalf := fun _ _ => ⟨rfl, rfl⟩

/-- R94: the refusal takes nothing from the data word. -/
theorem badWrite_eq_next (off : BitVec 8) (v : Word32) (s : State) :
    badWrite off v s = .next (raiseErr .badWrite true off s) := rfl

/-- Settles O42: each of the eleven writes is `badWrite` at its own offset. -/
theorem badWritesAreRefused : Obligations.BadWritesAreRefused := by
  intro v s
  simp only [← badWrite_eq_next _ v s]
  rfl

end Sys2Proof.Machine
end

section
/-! PROOF. The errors (60_exceptions.md): recording (R96), and the states in which a check of R107's order refuses. A
command's refusal is read off its whole next state, in the order of the checks there. -/

namespace Sys2Proof.Machine

/-! ### Recording (R95, R96) -/

/-- Settles O29: the two cases of `raiseErr`, and R95's codes. -/
theorem firstErrorIsKept : Obligations.FirstErrorIsKept :=
  ⟨fun k src info s => ⟨fun h => raiseErr_of_clear h k src info, fun h => raiseErr_of_pending h k src info,
    raiseErr_errCode_ne_zero k src info s⟩, rfl⟩

/-! ### BUSY (R102) -/

/-- Settles O34: the BUSY check comes before the command's own rule, and a write to CMD performs the command. -/
theorem busyRefusesAllButNopAndClrErr : Obligations.BusyRefusesAllButNopAndClrErr := by
  intro c s hnop hclr hb
  have hline := exec_toInstr_of_busy hnop hclr hb
  exact ⟨hline, (exec_wrCmd_of_some (decodeCommand_encodeCommand c) s).trans hline⟩

/-! ### START (R65, R66): BAD_SEQUENCE, NO_IV, UNINITIALIZED_KEY -/

theorem startCommand_of_active {s : State} (hst : s.st = .active) (m : Mode) (op : BitVec 4) :
    startCommand m op s = .next (raiseErr .badSequence false (op.setWidth 8) s) := by
  rw [startCommand_eq_next, if_neg (by simp [hst]), if_pos hst]

theorem startCommand_of_no_iv {s : State} (hst : s.st = .idle) (hiv : s.ivValid = false) (m : Mode) (op : BitVec 4) :
    startCommand m op s = .next (raiseErr .noIv false (op.setWidth 8) s) := by
  rw [startCommand_eq_next, if_neg (by simp [hst]), if_neg (by simp [hst]), if_pos hiv]

theorem startCommand_of_no_key {s : State} (hst : s.st = .idle) (hiv : s.ivValid = true) (hk : s.keyReady = false)
    (m : Mode) (op : BitVec 4) :
    startCommand m op s = .next (raiseErr .uninitializedKey false (op.setWidth 8) s) := by
  rw [startCommand_eq_next, if_neg (by simp [hst]), if_neg (by simp [hst]), if_neg (by simp [hiv]), if_pos hk]

/-- Settles O32: NO_IV comes before the key check. -/
theorem missingIvIsRefused : Obligations.MissingIvIsRefused := fun _ hst hiv =>
  ⟨startCommand_of_no_iv hst hiv .enc 0x2#4, startCommand_of_no_iv hst hiv .dec 0x3#4⟩

/-! ### PUSH and FINISH (R67, R68): BAD_SEQUENCE, UNINITIALIZED_KEY -/

theorem exec_push_of_idle {s : State} (hst : s.st = .idle) :
    exec .push s = .next (raiseErr .badSequence false 0x04#8 s) := by
  rw [pushIssuesTheStagedBlock s, if_neg (by simp [hst]), if_pos hst]

/-- BAD_SEQUENCE comes before the split on NB. -/
theorem exec_finish_of_idle {s : State} {nb : Nat} (hst : s.st = .idle) (h8 : nb < 8) :
    exec (.finish nb) s = .next (raiseErr .badSequence false 0x05#8 s) := by
  rw [finishEndsTheMessage nb s h8, if_neg (by simp [hst]), if_pos hst]

/-- PUSH, and FINISH with NB > 0: the commands that call the engine. -/
theorem sendRule_of_no_key {s : State} (hst : s.st = .active) (hk : s.keyReady = false) (op : BitVec 4) (b : Block)
    (last : Bool) : sendRule op b last s = .next (raiseErr .uninitializedKey false (op.setWidth 8) s) := by
  rw [sendRule_eq_next, if_neg (by simp [hst]), if_neg (by simp [hst]), if_pos hk]

/-- Settles O31: the key check is the last of START, and of the rule that sends a block. -/
theorem keyAbsentIsRefused : Obligations.KeyAbsentIsRefused := fun s hk =>
  ⟨fun hst hiv => ⟨startCommand_of_no_key hst hiv hk .enc 0x2#4, startCommand_of_no_key hst hiv hk .dec 0x3#4⟩,
    fun hst => ⟨(exec_push_eq_sendRule s).trans (sendRule_of_no_key hst hk 0x4#4 s.din false),
      fun nb h0 h8 => (exec_finish_eq_sendRule h0 h8 s).trans (sendRule_of_no_key hst hk 0x5#4 (pad s.din nb) true)⟩⟩

/-- Settles O33: the sequence check is the first after BUSY's. -/
theorem outOfSequenceIsRefused : Obligations.OutOfSequenceIsRefused := fun _ =>
  ⟨fun hst => ⟨startCommand_of_active hst .enc 0x2#4, startCommand_of_active hst .dec 0x3#4⟩,
    fun hst => ⟨exec_push_of_idle hst, fun _ h8 => exec_finish_of_idle hst h8⟩⟩

/-! ### The IV (R64, R90, R91): IV_LOCKED, IV_INCOMPLETE -/

theorem not_busy_of_idle_or_active {s : State} (hst : s.st = .idle ∨ s.st = .active) :
    ¬(s.st = .busy ∨ s.st = .busyLast) := by
  rw [← isBusy_iff, (isBusy_eq_false_iff s).2 hst]
  exact Bool.false_ne_true

/-- Settles O35: LOCK_IV's checks in their order; an IV write's one check. -/
theorem lockedOrIncompleteIvIsRefused : Obligations.LockedOrIncompleteIvIsRefused := by
  refine fun s => ⟨fun hv hst => ?_, fun hv v => ?_, fun hv hw hst => ?_⟩
  · rw [lockIvLocksAWrittenIv s, if_neg (not_busy_of_idle_or_active hst), if_pos hv]
  · obtain ⟨hhi, hlo⟩ := ivWritesSetTheirHalf v s
    rw [hhi, hlo, if_pos hv, if_pos hv]
    exact ⟨rfl, rfl⟩
  · rw [lockIvLocksAWrittenIv s, if_neg (not_busy_of_idle_or_active hst), if_neg (by simp [hv]), if_pos hw]

end Sys2Proof.Machine
end

section
/-! PROOF. Reset, and the order of the events of one hardware cycle (70_reset_and_hazards.md section 1). -/

namespace Sys2Proof.Machine

theorem stepWith_rst {s : State} {rest : List Input} (hin : s.inputs = .rst :: rest) (E : Engine) :
    stepWith E s = .next (resetBlock (setInputs rest s)) := stepWith_cons hin E

/-- Outside the busy states a response is taken and does nothing else (R118). -/
theorem stepWith_engineResponse_of_not_isBusy {s : State} {rest : List Input}
    (hin : s.inputs = .engineResponse :: rest) (hb : s.isBusy = false) (E : Engine) :
    stepWith E s = .next (setInputs rest s) :=
  (stepWith_cons hin E).trans
    (congrArg Host.Outcome.next (engineRespond_of_not_isBusy (s := setInputs rest s) hb E))

/-- A run of one step is the step, a refusal or a fault included. -/
theorem runWith_one (E : Engine) (s : State) : runWith E 1 s = stepWith E s := by
  rw [runWith]
  cases stepWith E s with
  | next t => rfl
  | fault r => rfl
  | refused r => rfl

/-- The completion is applied first, and the access sees the state after it (R108). -/
theorem runWith_response_line {s : State} {f : Frame} {rest : List Input}
    (hin : s.inputs = .engineResponse :: .line f :: rest) (hb : s.isBusy = true) (E : Engine) :
    runWith E 2 s = hostLine f (complete E (setInputs rest s)) := by
  have hresponse : stepWith E s = .next (complete E (setInputs (.line f :: rest) s)) :=
    stepWith_completion (.inl hin) hb E
  rw [runWith_succ_of_stepWith hresponse, runWith_one, stepWith_cons (complete_inputs E _)]
  rfl

/-- Settles O12: the reset step is `resetBlock`; the order of a cycle's events is `cycleInputs`, and the run takes them
so. -/
theorem resetSetsEveryField : Obligations.ResetSetsEveryField :=
  ⟨fun E _ _ hin => stepWith_rst hin E, cycleInputs_rst, cycleInputs_response_access, cycleInputs_response,
    cycleInputs_access, cycleInputs_none,
    fun E s _ _ hin hst => runWith_response_line hin ((isBusy_iff s).2 hst) E⟩

/-- Settles O14: after a reset the block is in IDLE, so the late response is one that is ignored. -/
theorem resetCancelsTheOutstandingRequest : Obligations.ResetCancelsTheOutstandingRequest := by
  refine ⟨fun E s _ hin hst => stepWith_engineResponse_of_not_isBusy hin ((isBusy_eq_false_iff s).2 hst) E,
    fun E s rest hin => ?_⟩
  have hidle : (resetBlock (setInputs (.engineResponse :: rest) s)).isBusy = false :=
    (isBusy_eq_false_iff _).2 (.inl (resetBlock_st _))
  rw [runWith_succ_of_stepWith (stepWith_rst hin E), runWith_one,
    stepWith_engineResponse_of_not_isBusy (resetBlock_inputs _) hidle, resetBlock_eq_reset]
  rfl

end Sys2Proof.Machine
end

section
/-! PROOF. Host lines (20_memory.md section 5, 30_encoding.md): the spec's own words and descriptors, the step at a line,
at a `wait` and at a change of the key input, and a count that does not assemble. -/

namespace Sys2Proof.Machine

/-! ### Words and descriptors written out (R42, R45) -/

theorem decode_encodeCommand (c : Command) : decode (.cmdw (encodeCommand c)) = .ok c.toInstr :=
  decode_cmdw_of_some (decodeCommand_encodeCommand c)

/-- Settles O3: the legal words are their commands' encodings, and R42's `decode` gives nothing for the others. -/
theorem specCommandWordsDecode : Obligations.SpecCommandWordsDecode :=
  ⟨decode_encodeCommand .nop, decode_encodeCommand .lockIv, decode_encodeCommand .startEnc,
    decode_encodeCommand .startDec, decode_encodeCommand .push, decode_encodeCommand (.finish 0),
    decode_encodeCommand (.finish 2), decode_encodeCommand (.finish 7), decode_encodeCommand .abort,
    decode_encodeCommand .clear, decode_encodeCommand .clrErr, (decode_cmdw_eq_error_iff _).2 rfl,
    (decode_cmdw_eq_error_iff _).2 rfl, (decode_cmdw_eq_error_iff _).2 rfl⟩

/-- Settles O4: on each written-out descriptor the decoder's fields and its tables evaluate, whatever the data word. -/
theorem specDescriptorsDecode : Obligations.SpecDescriptorsDecode := fun _ => ⟨rfl, rfl, rfl, rfl⟩

/-! ### The step at a line (R8, R38) -/

theorem stepWith_line_of_decode {s : State} {f : Frame} {rest : List Input} {i : Instr}
    (hin : s.inputs = .line f :: rest) (hd : decode f = .ok i) (E : Engine) :
    stepWith E s = exec i (setInputs rest s) :=
  (stepWith_cons hin E).trans (hostLine_of_decode hd (setInputs rest s))

theorem decodeTableWord_eq_some {nbits w : Nat} {i : Instr} (h : decodeTableWord nbits w = some i) :
    ∃ f, frameOfTableWord nbits w = some f ∧ decode f = .ok i := by
  unfold decodeTableWord at h
  cases hf : frameOfTableWord nbits w with
  | none => simp [hf] at h
  | some f =>
    cases hd : decode f with
    | error e => simp [hf, hd] at h
    | ok j => simpa [hf, hd] using h

theorem withFetchWord_of_frame {nbits w : Nat} {f : Frame} (h : frameOfTableWord nbits w = some f) (s : State) :
    s.withFetchWord nbits w = setInputs (.line f :: s.inputs) s := by simp [State.withFetchWord, setInputs, h]

/-- Settles O7: a placed row's frame is the host's next line. -/
theorem stepRunsTheDecodedLine : Obligations.StepRunsTheDecodedLine := by
  refine ⟨fun s f rest i hin hd => ?_, fun nbits w i s h => ?_⟩
  · exact ⟨stepWith_line_of_decode hin hd, stepWith_line_of_decode hin hd Config.engine⟩
  · obtain ⟨f, hf, hd⟩ := decodeTableWord_eq_some h
    rw [withFetchWord_of_frame hf]
    exact stepWith_line_of_decode (setInputs_inputs _ s) hd Config.engine

/-! ### The key input and `wait` (R20, R47) -/

/-- Settles O15: the step is `setKeyReady` on the state with the step taken. -/
theorem keyReadyFollowsTheEngine : Obligations.KeyReadyFollowsTheEngine := fun E _ _ _ hin => stepWith_cons hin E

/-- Two steps end a `wait` in a busy state: the completion, then the poll (R47, R54). -/
theorem runWith_wait_of_isBusy {s : State} {rest : List Input} (hin : s.inputs = .wait :: rest)
    (hb : s.isBusy = true) (E : Engine) :
    runWith E 2 s = .next (recordRead (statusWord (complete E s)) (setInputs rest (complete E s))) :=
  runWith_poll (early := false) hb hin E

/-- Settles O16: by whether the state is busy. -/
theorem waitReadsStatusOutsideTheBusyStates : Obligations.WaitReadsStatusOutsideTheBusyStates := by
  intro E s rest hin
  refine ⟨fun hst => stepWith_wait_of_not_isBusy hin ((isBusy_eq_false_iff s).2 hst) E, fun hst => ?_⟩
  have hb := (isBusy_iff s).2 hst
  exact ⟨stepWith_wait_of_isBusy hin hb E, runWith_wait_of_isBusy hin hb E⟩

/-! ### A count above 7 (R46) -/

theorem nbInRange_eq_false {nb : Nat} (h : 7 < nb) : nbInRange nb = false := decide_eq_false (by omega)

/-- FINISH assembles with a count that its NB field holds. -/
theorem assembleCmd_finish (nb : Nat) :
    assembleCmd "FINISH" (some nb) = if nbInRange nb then some [lineOf (.finish nb)] else none := rfl

/-- Settles O24: the assembler, `wf` and the meaning make the same check of the count's range. -/
theorem countAboveSevenDoesNotAssemble : Obligations.CountAboveSevenDoesNotAssemble := by
  intro nb h
  have hout := nbInRange_eq_false h
  refine ⟨(assembleCmd_finish nb).trans (by simp [hout]), hout, fun s => ?_⟩
  simp [exec, execFinish, hout]

end Sys2Proof.Machine
end

section
/-! PROOF. Bus cycles and the end of a run (20_memory.md sections 1 and 4, 70_reset_and_hazards.md sections 3 and 5): a
legal cycle is its access, any other is refused, and every other pending step is done in at most two steps. -/

namespace Sys2Proof.Machine

/-! ### Legal and illegal bus cycles (R32, R35) -/

theorem BusCycle.legal_iff (c : BusCycle) :
    c.Legal ↔ c.width = 32 ∧ (c.addr - Config.cbcBase) % 4 = 0 ∧ Config.cbcBase ≤ c.addr ∧
      c.addr < Config.cbcBase + 64 :=
  ⟨fun h => ⟨h.width, h.aligned, h.atBase, h.inWindow⟩, fun ⟨hw, ha, hb, hi⟩ => ⟨hw, ha, hb, hi⟩⟩

theorem busFrame_of_not_legal {c : BusCycle} (h : ¬ c.Legal) : ∃ r, busFrame c = .error r := by
  unfold busFrame
  split
  · exact ⟨_, rfl⟩
  case isFalse hwin =>
    split
    · exact ⟨_, rfl⟩
    case isFalse hwidth =>
      split
      · exact ⟨_, rfl⟩
      case isFalse halign =>
        obtain ⟨hbase, htop⟩ := not_or.1 hwin
        exact absurd ⟨not_not.1 hwidth, not_not.1 halign, not_lt.1 hbase, not_le.1 htop⟩ h

theorem stepWith_bus_of_not_legal {s : State} {c : BusCycle} {rest : List Input} (hin : s.inputs = .bus c :: rest)
    (hc : ¬ c.Legal) (E : Engine) : ∃ r, stepWith E s = .refused r := by
  obtain ⟨r, hr⟩ := busFrame_of_not_legal hc
  exact ⟨r, by rw [stepWith_cons hin, takeInput, hostBus, hr]⟩

/-- The 32-bit cycle at the word index `idx` of the window. -/
theorem busFrame_word (idx : BitVec 4) (we : Bool) (v : Word32) :
    busFrame { addr := Config.cbcBase + 4 * idx.toNat, width := 32, we := we, wdata := v } =
      .ok (.access (BitVec.ofBool we ++ idx) v) := by
  have hoff : Config.cbcBase + 4 * idx.toNat - Config.cbcBase = 4 * idx.toNat := Nat.add_sub_cancel_left ..
  have hlt := idx.isLt
  rw [busFrame_of_legal ⟨rfl, by simp, by simp, by simp only; omega⟩]
  simp [hoff]

/-- Settles O8: both steps are the access's line. -/
theorem busCycleIsItsAccess : Obligations.BusCycleIsItsAccess := by
  intro E s rest idx we v hin
  have hframe := hostFrame_bus_of_ok (busFrame_word idx we v)
  rw [stepWith_cons hin, takeInput_of_hostFrame hframe]
  rfl

/-! ### One pending step (R126) -/

theorem Effect.inputs {s t : State} (he : Effect s t) : t.inputs = s.inputs := by
  cases he with
  | refusedCommand | refusedWrite => exact raiseErr_inputs ..
  | same | read | locked | started | pushed | finished | ended | cleared | errCleared | ivHi | ivLo | dinHi
  | dinLo => rfl

/-- A host access is never refused, and it takes its pending step alone. -/
theorem takeInput_host {x : Input} {f : Frame} (hx : x.hostFrame = some f) (E : Engine) (rest : List Input)
    (s : State) : ∃ t, takeInput E x rest s = .next t ∧ t.inputs = rest := by
  obtain ⟨t, ht, he⟩ := hostLine_effect f (setInputs rest s)
  exact ⟨t, (takeInput_of_hostFrame hx E rest s).trans ht, he.inputs⟩

/-- Only a `wait` can stay pending, and only an illegal bus cycle is refused. -/
theorem takeInput_next {x : Input} (hwait : x ≠ .wait) (hbus : ∀ c, x = .bus c → c.Legal) (E : Engine)
    (rest : List Input) (s : State) : ∃ t, takeInput E x rest s = .next t ∧ t.inputs = rest := by
  cases x with
  | line f => exact takeInput_host (hostFrame_line f) E rest s
  | bus c => exact takeInput_host (hostFrame_bus_of_ok (busFrame_of_legal (hbus c rfl))) E rest s
  | wait => exact absurd rfl hwait
  | engineResponse => exact ⟨_, rfl, engineRespond_inputs E (setInputs rest s)⟩
  | keyReady b => exact ⟨_, rfl, rfl⟩
  | rst => exact ⟨_, rfl, rfl⟩

theorem stepWith_wait_next {s : State} {rest : List Input} (hin : s.inputs = .wait :: rest) (E : Engine) :
    ∃ t, stepWith E s = .next t := by
  cases hb : s.isBusy with
  | true => exact ⟨_, stepWith_wait_of_isBusy hin hb E⟩
  | false => exact ⟨_, stepWith_wait_of_not_isBusy hin hb E⟩

theorem stepWith_next {s : State} (hbus : ∀ c rest, s.inputs = .bus c :: rest → c.Legal) (E : Engine) :
    ∃ t, stepWith E s = .next t := by
  cases hin : s.inputs with
  | nil => exact ⟨_, stepWith_nil hin E⟩
  | cons x rest =>
    by_cases hx : x = .wait
    · exact stepWith_wait_next (hx ▸ hin) E
    · obtain ⟨t, ht, -⟩ := takeInput_next hx (fun c hc => hbus c rest (hc ▸ hin)) E rest s
      exact ⟨t, (stepWith_cons hin E).trans ht⟩

/-- Settles O9: the first clause's cycles are those that are not `Legal`, and the second's are `Legal`. -/
theorem onlyBadBusCyclesAreRefused : Obligations.OnlyBadBusCyclesAreRefused := by
  refine ⟨fun E s c rest hin hbad => stepWith_bus_of_not_legal hin (fun hc => ?_) E, fun E s hgood => ?_⟩
  · obtain ⟨hwidth, halign, hbase, htop⟩ := c.legal_iff.1 hc
    omega
  · exact stepWith_next (fun c rest hin => c.legal_iff.2 (hgood c rest hin)) E

/-! ### A whole run (R128) -/

/-- A pending step is done in two steps at most: a `wait` in a busy state takes two, any other takes one. -/
theorem runWith_takes_input {s : State} {x : Input} {rest : List Input} (hin : s.inputs = x :: rest)
    (hbus : ∀ c, x = .bus c → c.Legal) (E : Engine) :
    ∃ n t, n ≤ 2 ∧ runWith E n s = .next t ∧ t.inputs = rest := by
  by_cases hx : x = .wait
  · subst hx
    cases hb : s.isBusy with
    | true => exact ⟨2, _, le_rfl, runWith_wait_of_isBusy hin hb E, rfl⟩
    | false => exact ⟨1, _, one_le_two, (runWith_one E s).trans (stepWith_wait_of_not_isBusy hin hb E), rfl⟩
  · obtain ⟨t, ht, hrest⟩ := takeInput_next hx hbus E rest s
    exact ⟨1, t, one_le_two, (runWith_one E s).trans ((stepWith_cons hin E).trans ht), hrest⟩

theorem runWith_drains {s : State} {xs : List Input} (hin : s.inputs = xs) (hbus : ∀ c, .bus c ∈ xs → c.Legal)
    (E : Engine) : ∃ n u, n ≤ 2 * xs.length ∧ runWith E n s = .next u ∧ u.inputs = [] := by
  induction xs generalizing s with
  | nil => exact ⟨0, s, le_rfl, rfl, hin⟩
  | cons x rest ih =>
    obtain ⟨m, t, hm, ht, htin⟩ := runWith_takes_input hin (fun c hc => hbus c (hc ▸ List.mem_cons_self)) E
    obtain ⟨n, u, hn, hu, hdone⟩ := ih htin (fun c hc => hbus c (List.mem_cons_of_mem x hc))
    refine ⟨m + n, u, ?_, runWith_trans ht hu, hdone⟩
    rw [List.length_cons]
    omega

theorem runWith_of_ended {s : State} (h : Ended s) (E : Engine) (m : Nat) : runWith E m s = .next s := by
  induction m with
  | zero => rfl
  | succ m ih => rw [runWith_succ_of_stepWith (stepWith_of_ended h E), ih]

theorem ended_engineRespond {s : State} (h : s.inputs = []) (E : Engine) : Ended (engineRespond E s) :=
  ⟨(engineRespond_inputs E s).trans h, engineRespond_isBusy E s⟩

/-- Settles O17: the pending steps drain by induction on their list, and the step after them is the last response, which
no block in flight survives. -/
theorem everyRunEnds : Obligations.EveryRunEnds := by
  intro E s hbus
  obtain ⟨n, u, hn, hu, hin⟩ := runWith_drains rfl hbus E
  have hlast : runWith E 1 u = .next (engineRespond E u) := (runWith_one E u).trans (stepWith_nil hin E)
  have hended := ended_engineRespond hin E
  exact ⟨n, u, engineRespond E u, hn, hu, hin, runWith_trans hu hlast, hended,
    fun hst => engineRespond_of_isBusy ((isBusy_iff u).2 hst) E,
    fun hst => engineRespond_of_not_isBusy ((isBusy_eq_false_iff u).2 hst) E, runWith_of_ended hended E⟩

end Sys2Proof.Machine
end

section
/-! PROOF. What an instruction's choice of effect depends on (60_exceptions.md section 1, 10_state.md section 2): its
checks read five fields only, so two states that agree on these take the same operation. From that come the refusals,
which the recorded error does not influence, and the hidden fields `req` and `hold`, which influence nothing. -/

namespace Sys2Proof.Machine

/-! ### The operation an instruction performs -/

/-- `s` with other values in the hidden fields (R24). -/
def withHidden (r h : Block) (s : State) : State := { s with req := r, hold := h }

/-- The operations an instruction performs when it answers a next state. -/
inductive Operation : (State → State) → Prop where
  /-- NOP, and ABORT in IDLE (R63, R69). -/
  | same : Operation id
  /-- A read, whose value shows nothing of the hidden fields (R24, R73). -/
  | read (value : State → Word32) (hvalue : ∀ r h s, value (withHidden r h s) = value s) :
      Operation (fun s => recordRead (value s) s)
  /-- A refusal (R96). -/
  | raise (k : ErrKind) (src : Bool) (info : BitVec 8) : Operation (raiseErr k src info)
  /-- LOCK_IV (R64). -/
  | lock : Operation lockIv
  /-- START (R65, R66). -/
  | start (m : Mode) : Operation (startMessage m)
  /-- PUSH (R67). -/
  | push : Operation (fun s => issue s.din false s)
  /-- FINISH with NB > 0 (R68). -/
  | finish (nb : Nat) : Operation (fun s => issue (pad s.din nb) true s)
  /-- FINISH with NB = 0, and ABORT in ACTIVE (R68, R69). -/
  | endMsg : Operation endMessage
  /-- CLEAR (R70). -/
  | clear : Operation clearInstance
  /-- CLR_ERR (R71). -/
  | clrErr : Operation clearErr
  /-- IV_HI written (R90). -/
  | ivHi (v : Word32) : Operation (setIvHi v)
  /-- IV_LO written (R91). -/
  | ivLo (v : Word32) : Operation (setIvLo v)
  /-- DIN_HI written (R92). -/
  | dinHi (v : Word32) : Operation (setDinHi v)
  /-- DIN_LO written (R93). -/
  | dinLo (v : Word32) : Operation (setDinLo v)

/-- The fields that the checks of R107 read. -/
structure SameChecks (s u : State) : Prop where
  st : s.st = u.st
  ivValid : s.ivValid = u.ivValid
  ivHiW : s.ivHiW = u.ivHiW
  ivLoW : s.ivLoW = u.ivLoW
  keyReady : s.keyReady = u.keyReady

/-- `rule` performs the same operation on `s` and on `u`. -/
def Alike (s u : State) (rule : State → Result) : Prop :=
  ∃ f, Operation f ∧ rule s = .next (f s) ∧ rule u = .next (f u)

section
variable {s u : State}

theorem Operation.alike {f : State → State} (h : Operation f) : Alike s u (fun x => .next (f x)) := ⟨f, h, rfl, rfl⟩

theorem alike_refuseCommand (k : ErrKind) (op : BitVec 4) : Alike s u (refuseCommand k op) :=
  (Operation.raise k false (op.setWidth 8)).alike

theorem alike_refuseWrite (k : ErrKind) (off : BitVec 8) : Alike s u (refuseWrite k off) :=
  (Operation.raise k true off).alike

theorem alike_hostRead (value : State → Word32) (hvalue : ∀ r h s, value (withHidden r h s) = value s) :
    Alike s u (fun x => hostRead (value x) x) := (Operation.read value hvalue).alike

/-- A check that both states pass or both fail. -/
theorem Alike.ite {check : State → Prop} [DecidablePred check] {yes no : State → Result}
    (hcheck : check s ↔ check u) (hyes : Alike s u yes) (hno : Alike s u no) :
    Alike s u (fun x => if check x then yes x else no x) := by
  by_cases h : check s
  · simpa only [Alike, if_pos h, if_pos (hcheck.1 h)] using hyes
  · simpa only [Alike, if_neg h, if_neg (mt hcheck.2 h)] using hno

section
variable (h : SameChecks s u)
include h

theorem SameChecks.isBusy : s.isBusy = u.isBusy := by rw [State.isBusy, State.isBusy, h.st]

theorem Alike.unlessBusy {rule : State → Result} (hrule : Alike s u rule) (op : BitVec 4) :
    Alike s u (fun x => unlessBusy op x (rule x)) :=
  .ite (by rw [h.isBusy]) (alike_refuseCommand .busy op) hrule

/-! ### Each command, in the order of its checks (R107) -/

theorem alike_startCommand (m : Mode) (op : BitVec 4) : Alike s u (startCommand m op) := by
  refine .unlessBusy h ?_ op
  refine .ite (by rw [h.st]) (alike_refuseCommand .badSequence op) ?_
  refine .ite (by rw [h.ivValid]) (alike_refuseCommand .noIv op) ?_
  exact .ite (by rw [h.keyReady]) (alike_refuseCommand .uninitializedKey op) (Operation.start m).alike

theorem alike_sendRule {b : State → Block} {last : Bool} (hb : Operation (fun x => issue (b x) last x))
    (op : BitVec 4) : Alike s u (fun x => sendRule op (b x) last x) := by
  refine .unlessBusy h ?_ op
  refine .ite (by rw [h.st]) (alike_refuseCommand .badSequence op) ?_
  exact .ite (by rw [h.keyReady]) (alike_refuseCommand .uninitializedKey op) hb.alike

theorem alike_execLockIv : Alike s u execLockIv := by
  refine .unlessBusy h ?_ 0x1#4
  refine .ite (by rw [h.ivValid]) (alike_refuseCommand .ivLocked 0x1#4) ?_
  exact .ite (by rw [h.ivHiW, h.ivLoW]) Operation.lock.alike (alike_refuseCommand .ivIncomplete 0x1#4)

theorem alike_execAbort : Alike s u execAbort := by
  refine .unlessBusy h ?_ 0x6#4
  exact .ite (by rw [h.st]) Operation.endMsg.alike Operation.same.alike

theorem alike_execClear : Alike s u execClear := .unlessBusy h Operation.clear.alike 0x7#4

theorem alike_execFinish {nb : Nat} (h8 : nb < 8) : Alike s u (execFinish nb) := by
  by_cases h0 : nb = 0
  · subst h0
    refine .unlessBusy h ?_ 0x5#4
    exact .ite (by rw [h.st]) (alike_refuseCommand .badSequence 0x5#4) Operation.endMsg.alike
  · have hsend : execFinish nb = fun x => sendRule 0x5#4 (pad x.din nb) true x :=
      funext (exec_finish_eq_sendRule (Nat.pos_of_ne_zero h0) h8)
    rw [hsend]
    exact alike_sendRule h (.finish nb) 0x5#4

theorem alike_runCommand (c : Command) : Alike s u (runCommand c) := by
  cases c with
  | nop => exact Operation.same.alike
  | lockIv => exact alike_execLockIv h
  | startEnc => exact alike_startCommand h .enc 0x2#4
  | startDec => exact alike_startCommand h .dec 0x3#4
  | push => exact alike_sendRule h .push 0x4#4
  | finish nb => exact alike_execFinish h nb.isLt
  | abort => exact alike_execAbort h
  | clear => exact alike_execClear h
  | clrErr => exact Operation.clrErr.alike

/-! ### Every instruction and every host line -/

theorem alike_cmdWrite (w : Word32) : Alike s u (cmdWrite w) := by
  unfold cmdWrite
  cases decodeCommand w with
  | none => exact alike_refuseCommand .illegalCmd (cmdOp w)
  | some c => exact alike_runCommand h c

theorem alike_ivWrite {f : State → State} (hf : Operation f) (off : BitVec 8) :
    Alike s u (fun x => if x.ivValid then refuseWrite .ivLocked off x else .next (f x)) :=
  .ite (by rw [h.ivValid]) (alike_refuseWrite .ivLocked off) hf.alike

theorem alike_exec {i : Instr} (hwf : i.wf = true) : Alike s u (exec i) := by
  cases i with
  | nop => exact alike_runCommand h .nop
  | lockIv => exact alike_runCommand h .lockIv
  | startEnc => exact alike_runCommand h .startEnc
  | startDec => exact alike_runCommand h .startDec
  | push => exact alike_runCommand h .push
  | finish nb => exact alike_execFinish h (of_decide_eq_true hwf)
  | abort => exact alike_runCommand h .abort
  | clear => exact alike_runCommand h .clear
  | clrErr => exact alike_runCommand h .clrErr
  | rdId => exact alike_hostRead (fun _ => Config.idWord) fun _ _ _ => rfl
  | rdCmd | rdRsv34 | rdRsv38 | rdRsv3C => exact alike_hostRead (fun _ => 0) fun _ _ _ => rfl
  | rdStatus => exact alike_hostRead statusWord fun _ _ _ => rfl
  | rdErr => exact alike_hostRead errWord fun _ _ _ => rfl
  | rdIvHi => exact alike_hostRead (fun x => hiWord x.iv) fun _ _ _ => rfl
  | rdIvLo => exact alike_hostRead (fun x => loWord x.iv) fun _ _ _ => rfl
  | rdDinHi => exact alike_hostRead (fun x => hiWord x.din) fun _ _ _ => rfl
  | rdDinLo => exact alike_hostRead (fun x => loWord x.din) fun _ _ _ => rfl
  | rdDoutHi => exact alike_hostRead (fun x => hiWord x.dout) fun _ _ _ => rfl
  | rdDoutLo => exact alike_hostRead (fun x => loWord x.dout) fun _ _ _ => rfl
  | rdChainHi => exact alike_hostRead (fun x => hiWord x.chain) fun _ _ _ => rfl
  | rdChainLo => exact alike_hostRead (fun x => loWord x.chain) fun _ _ _ => rfl
  | rdBlkcnt => exact alike_hostRead State.blkcnt fun _ _ _ => rfl
  | wrCmd v => exact alike_cmdWrite h v
  | wrIvHi v => exact alike_ivWrite h (.ivHi v) 0x10#8
  | wrIvLo v => exact alike_ivWrite h (.ivLo v) 0x14#8
  | wrDinHi v => exact (Operation.dinHi v).alike
  | wrDinLo v => exact (Operation.dinLo v).alike
  | wrRoId | wrRoStatus | wrRoErr | wrRoDoutHi | wrRoDoutLo | wrRoChainHi | wrRoChainLo | wrRoBlkcnt | wrRo34
  | wrRo38 | wrRo3C => exact alike_refuseWrite .badWrite _

theorem alike_hostLine (f : Frame) : Alike s u (hostLine f) := by
  unfold hostLine
  cases hd : decode f with
  | error e => exact alike_refuseCommand .illegalCmd (cmdOp e.1)
  | ok i =>
    obtain ⟨hwf, -⟩ := encodeOfDecode f i hd
    exact alike_exec h hwf

end

end

/-! ### Refusals are precise (R97) -/

theorem sameChecks_clearErr (s : State) : SameChecks (clearErr s) s := ⟨rfl, rfl, rfl, rfl, rfl⟩

/-- With ERR clear, only a refusal leaves an error recorded. -/
theorem Operation.eq_raiseErr {f : State → State} (hf : Operation f) {s : State} (h0 : s.errCode = 0)
    (herr : (f s).errCode ≠ 0) : ∃ k src info, f = raiseErr k src info := by
  cases hf with
  | raise k src info => exact ⟨k, src, info, rfl⟩
  | clrErr => exact absurd rfl herr
  | same | read | lock | start | push | finish | endMsg | clear | ivHi | ivLo | dinHi | dinLo => exact absurd h0 herr

/-- R96's two cases, with the error read off the same refusal on the state with ERR clear. -/
theorem raiseErr_eq_of_clearErr (k : ErrKind) (src : Bool) (info : BitVec 8) (s : State) :
    raiseErr k src info s =
      if s.errCode = 0 then
        { s with
          errCode := (raiseErr k src info (clearErr s)).errCode
          errSrc := (raiseErr k src info (clearErr s)).errSrc
          errInfo := (raiseErr k src info (clearErr s)).errInfo }
      else { s with errMore := true } := by
  rw [raiseErr_of_clear (clearErr_errCode s)]
  rfl

/-- Settles O30: with ERR clear or not, the instruction performs the same operation, and only a refusal records. -/
theorem refusalsArePrecise : Obligations.RefusalsArePrecise := by
  intro i s t h herr
  obtain ⟨f, hf, hclear, hs⟩ := alike_exec (sameChecks_clearErr s) (wf_of_exec_next h)
  rw [eq_of_next h hclear] at herr ⊢
  obtain ⟨k, src, info, rfl⟩ := hf.eq_raiseErr (clearErr_errCode s) herr
  exact hs.trans (congrArg Host.Outcome.next (raiseErr_eq_of_clearErr k src info s))

/-! ### The hidden fields (R24) -/

/-- `t'` is `t` up to the hidden fields, and `t` itself where a block is in flight. -/
def HiddenAlike (t t' : State) : Prop :=
  withHidden t.req t.hold t' = t ∧ ((t.st = .busy ∨ t.st = .busyLast) → t' = t)

theorem hiddenAlike_refl (t : State) : HiddenAlike t t := ⟨rfl, fun _ => rfl⟩

theorem hiddenAlike_withHidden {t : State} (ht : t.isBusy = false) (r h : Block) :
    HiddenAlike t (withHidden r h t) :=
  ⟨rfl, fun hst => absurd hst (not_busy_of_idle_or_active ((isBusy_eq_false_iff t).1 ht))⟩

theorem raiseErr_withHidden (k : ErrKind) (src : Bool) (info : BitVec 8) (r h : Block) (s : State) :
    raiseErr k src info (withHidden r h s) = withHidden r h (raiseErr k src info s) := by
  by_cases h0 : s.errCode = 0
  · rw [raiseErr_of_clear h0, raiseErr_of_clear (s := withHidden r h s) h0]
    rfl
  · rw [raiseErr_of_pending h0, raiseErr_of_pending (s := withHidden r h s) h0]
    rfl

/-- Issuing a block and CLEAR overwrite both hidden fields (R51, R70); any other operation leaves
them as they were, and no block in flight. -/
theorem Operation.hiddenAlike {f : State → State} (hf : Operation f) {s : State} (hs : s.isBusy = false)
    (r h : Block) : HiddenAlike (f s) (f (withHidden r h s)) := by
  cases hf with
  | push | finish | clear => exact hiddenAlike_refl _
  | raise k src info =>
    rw [raiseErr_withHidden]
    exact hiddenAlike_withHidden (by rw [State.isBusy, raiseErr_st]; exact hs) r h
  | read value hvalue =>
    simp only [hvalue]
    exact hiddenAlike_withHidden (t := recordRead (value s) s) hs r h
  | start | endMsg => exact hiddenAlike_withHidden rfl r h
  | same | lock | clrErr | ivHi | ivLo | dinHi | dinLo =>
    refine hiddenAlike_withHidden ?_ r h
    exact hs

theorem sameChecks_withHidden (r h : Block) (s : State) : SameChecks s (withHidden r h s) := ⟨rfl, rfl, rfl, rfl, rfl⟩

theorem hostLine_hiddenAlike {f : Frame} {s t : State} (hs : s.isBusy = false) (ht : hostLine f s = .next t)
    (r h : Block) : ∃ t', hostLine f (withHidden r h s) = .next t' ∧ HiddenAlike t t' := by
  obtain ⟨op, hop, hline, hline'⟩ := alike_hostLine (sameChecks_withHidden r h s) f
  rw [eq_of_next ht hline]
  exact ⟨_, hline', hop.hiddenAlike hs r h⟩

/-- Settles O47, by the cases of `StepEffect`: outside the busy states a response does nothing, a host access performs
the same operation, and the other steps do not see the hidden fields. -/
theorem hiddenStateIsUnobservable : Obligations.HiddenStateIsUnobservable := by
  intro E s t r h hst ht
  have hs : s.isBusy = false := (isBusy_eq_false_iff s).2 hst
  show ∃ t', stepWith E (withHidden r h s) = .next t' ∧ HiddenAlike t t'
  cases stepEffect_of_stepWith_next ht with
  | host x f rest _ hin hx hline _ =>
    rw [stepWith_cons (s := withHidden r h s) hin, takeInput_of_hostFrame hx]
    exact hostLine_hiddenAlike (s := setInputs rest s) hs hline r h
  | response rest hin =>
    rw [engineRespond_of_not_isBusy (s := setInputs rest s) hs]
    exact ⟨_, stepWith_engineResponse_of_not_isBusy (s := withHidden r h s) hin hs E,
      hiddenAlike_withHidden (t := setInputs rest s) hs r h⟩
  | own hin =>
    obtain hnil | ⟨hb, -⟩ := hin
    · rw [engineRespond_of_not_isBusy hs]
      exact ⟨_, stepWith_of_ended (s := withHidden r h s) ⟨hnil, hs⟩ E, hiddenAlike_withHidden hs r h⟩
    · exact absurd (hs.symm.trans hb) Bool.false_ne_true
  | waited rest hin _ =>
    exact ⟨_, stepWith_wait_of_not_isBusy (s := withHidden r h s) hin hs E,
      hiddenAlike_withHidden (t := recordRead (statusWord s) (setInputs rest s)) hs r h⟩
  | keyed rest b hin =>
    exact ⟨_, stepWith_cons (s := withHidden r h s) hin E,
      hiddenAlike_withHidden (t := setKeyReady b (setInputs rest s)) hs r h⟩
  | reset rest hin => exact ⟨_, stepWith_rst (s := withHidden r h s) hin E, hiddenAlike_refl _⟩

end Sys2Proof.Machine
end

section
/-! PROOF. What instructions leave of the data registers and of the block in flight (10_state.md sections 1 and 2). -/

namespace Sys2Proof.Machine

/-! ### The block in flight (R19, R102) -/

/-- In a busy state the operations left are those that do not touch the datapath. -/
theorem Effect.datapath_of_isBusy {s t : State} (he : Effect s t) (hb : s.isBusy = true) :
    t.datapath = s.datapath := by
  cases he with
  | refusedCommand | refusedWrite => exact datapath_raiseErr ..
  | same | read | errCleared | ivHi | ivLo | dinHi | dinLo => rfl
  | locked hn | cleared hn => exact absurd (hn.symm.trans hb) Bool.false_ne_true
  | started _ hst | pushed hst | finished _ _ _ hst | ended hst =>
    exact absurd ((isBusy_iff s).1 hb) (by simp [hst])

theorem datapath_eq_iff {s t : State} :
    t.datapath = s.datapath ↔
      t.st = s.st ∧ t.mode = s.mode ∧ t.chain = s.chain ∧ t.req = s.req ∧ t.hold = s.hold ∧ t.dout = s.dout ∧
        t.outValid = s.outValid ∧ t.blkcnt = s.blkcnt := by
  simp only [State.datapath, State.mk.injEq]
  tauto

/-- Settles O45: the eight fields are the datapath. -/
theorem blockInFlightIsUntouchable : Obligations.BlockInFlightIsUntouchable := fun _ s _ hst h =>
  datapath_eq_iff.1 ((effect_of_exec_next h).datapath_of_isBusy ((isBusy_iff s).2 hst))

/-! ### The writers of the data registers (R13, R17, R18, R19, R21) -/

/-- The two ways to give a command: as a line, and as a write of its word to CMD (R46). -/
def Gives (i : Instr) (c : Command) : Prop := i = c.toInstr ∨ i = .wrCmd (encodeCommand c)

/-- An instruction that answers a next state is a command given, an illegal write to CMD, or another register's access. -/
theorem exec_next_cases {i : Instr} {s t : State} (h : exec i s = .next t) :
    (∃ c, Gives i c ∧ exec c.toInstr s = .next t) ∨ (∃ info, t = raiseErr .illegalCmd false info s) ∨
      offCmd i = true := by
  obtain ⟨c, rfl⟩ | ⟨w, rfl⟩ | hoff := command_or_wrCmd_or_offCmd (wf_of_exec_next h)
  · exact .inl ⟨c, .inl rfl, h⟩
  · cases hd : decodeCommand w with
    | none => exact .inr (.inl ⟨_, eq_of_next h (exec_wrCmd_of_none hd s)⟩)
    | some c =>
      rw [← encodeCommand_of_decodeCommand hd] at h ⊢
      exact .inl ⟨c, .inr rfl, (exec_wrCmd_of_some (decodeCommand_encodeCommand c) s).symm.trans h⟩
  · exact .inr (.inr hoff)

/-- A command other than CLEAR leaves DOUT, DIN and IV, and other than START leaves CHAIN too. -/
theorem exec_toInstr_dataRegisters {c : Command} {s t : State} (hc : c ≠ .clear) (h : exec c.toInstr s = .next t) :
    (c ≠ .startEnc → c ≠ .startDec → t.chain = s.chain) ∧ t.dout = s.dout ∧ t.din = s.din ∧ t.iv = s.iv := by
  cases c
  case clear => exact absurd rfl hc
  case nop | clrErr => cases h; exact ⟨fun _ _ => rfl, rfl, rfl, rfl⟩
  case' lockIv => rw [eq_of_next h (lockIvLocksAWrittenIv s)]
  case' startEnc => rw [eq_of_next h (startEncBeginsAMessage s)]
  case' startDec => rw [eq_of_next h (startDecBeginsAMessage s)]
  case' push => rw [eq_of_next h (pushIssuesTheStagedBlock s)]
  case' finish nb => rw [eq_of_next h (finishEndsTheMessage nb.toNat s nb.isLt)]
  case' abort => rw [eq_of_next h (abortEndsTheActiveMessage s)]
  all_goals simp [apply_ite State.chain, apply_ite State.dout, apply_ite State.din, apply_ite State.iv]

/-- An access to another register than CMD changes DIN or IV only where it writes it. -/
theorem exec_offCmd_din_iv {i : Instr} {s t : State} (hi : offCmd i = true) (h : exec i s = .next t) :
    (t.din = s.din ∨ ∃ v, i = .wrDinHi v ∨ i = .wrDinLo v) ∧
      (t.iv = s.iv ∨ ∃ v, i = .wrIvHi v ∨ i = .wrIvLo v) := by
  cases i with
  | nop | lockIv | startEnc | startDec | push | finish | abort | clear | clrErr | wrCmd => cases hi
  | rdId | rdCmd | rdStatus | rdErr | rdIvHi | rdIvLo | rdDinHi | rdDinLo | rdDoutHi | rdDoutLo | rdChainHi
  | rdChainLo | rdBlkcnt | rdRsv34 | rdRsv38 | rdRsv3C => cases h; exact ⟨.inl rfl, .inl rfl⟩
  | wrDinHi v => cases h; exact ⟨.inr ⟨v, .inl rfl⟩, .inl rfl⟩
  | wrDinLo v => cases h; exact ⟨.inr ⟨v, .inr rfl⟩, .inl rfl⟩
  | wrIvHi v =>
    rw [eq_of_next h (ivWritesSetTheirHalf v s).1]
    exact ⟨.inl (by simp [apply_ite State.din]), .inr ⟨v, .inl rfl⟩⟩
  | wrIvLo v =>
    rw [eq_of_next h (ivWritesSetTheirHalf v s).2]
    exact ⟨.inl (by simp [apply_ite State.din]), .inr ⟨v, .inr rfl⟩⟩
  | wrRoId | wrRoStatus | wrRoErr | wrRoDoutHi | wrRoDoutLo | wrRoChainHi | wrRoChainLo | wrRoBlkcnt | wrRo34
  | wrRo38 | wrRo3C => cases h; simp

theorem mem_of_gives_start {i : Instr} {c : Command} (h : Gives i c)
    (hc : c = .startEnc ∨ c = .startDec ∨ c = .clear) :
    i ∈ [.startEnc, .startDec, .clear, .wrCmd 0x2#32, .wrCmd 0x3#32, .wrCmd 0x7#32] := by
  obtain rfl | rfl | rfl := hc <;> obtain rfl | rfl := h <;> decide

theorem mem_of_gives_clear {i : Instr} (h : Gives i .clear) : i ∈ [.clear, .wrCmd 0x7#32] := by
  obtain rfl | rfl := h <;> decide

/-- Settles O44, by `exec_next_cases`. -/
theorem dataRegistersHaveOnlyTheirWriters : Obligations.DataRegistersHaveOnlyTheirWriters := by
  intro i s t h
  obtain ⟨c, hgives, hc⟩ | ⟨info, rfl⟩ | hoff := exec_next_cases h
  · by_cases hclear : c = .clear
    · subst hclear
      have hmem := mem_of_gives_clear hgives
      exact ⟨fun _ => mem_of_gives_start hgives (.inr (.inr rfl)), fun _ => hmem, fun _ => .inl hmem,
        fun _ => .inl hmem⟩
    · obtain ⟨hchain, hdout, hdin, hiv⟩ := exec_toInstr_dataRegisters hclear hc
      refine ⟨fun hne => mem_of_gives_start hgives ?_, (absurd hdout ·), (absurd hdin ·), (absurd hiv ·)⟩
      by_contra hother
      obtain ⟨henc, hdec, -⟩ := by simpa only [not_or] using hother
      exact hne (hchain henc hdec)
  · simp
  · obtain ⟨hdin, hiv⟩ := exec_offCmd_din_iv hoff h
    obtain ⟨u, hu, hframe⟩ := exec_offCmd hoff s
    rw [← eq_of_next h hu] at hframe
    obtain ⟨-, -, hchain, -, -, hdout, -, -⟩ := datapath_eq_iff.1 hframe.datapath
    exact ⟨(absurd hchain ·), (absurd hdout ·), fun hne => .inr (hdin.resolve_left hne),
      fun hne => .inr (hiv.resolve_left hne)⟩

end Sys2Proof.Machine
end

section
/-! PROOF. The byte order of a block (00_scope.md section 6, 20_memory.md section 2). -/

namespace Sys2Proof.Machine

theorem hiWord_eq_bytes (b : Block) :
    hiWord b = (byteOf b 0 ++ byteOf b 1 ++ byteOf b 2 ++ byteOf b 3).cast rfl := by
  simp (disch := rfl) only [byteOf, BitVec.extractLsb'_append_extractLsb'_eq_extractLsb']
  rfl

theorem loWord_eq_bytes (b : Block) :
    loWord b = (byteOf b 4 ++ byteOf b 5 ++ byteOf b 6 ++ byteOf b 7).cast rfl := by
  simp (disch := rfl) only [byteOf, BitVec.extractLsb'_append_extractLsb'_eq_extractLsb']
  rfl

theorem pack_unpack (b : Block) : pack (unpack b) = b := by
  have hbytes : pack (unpack b) = (byteOf b 0 ++ byteOf b 1 ++ byteOf b 2 ++ byteOf b 3 ++ byteOf b 4 ++ byteOf b 5 ++
      byteOf b 6 ++ byteOf b 7).cast rfl := rfl
  rw [hbytes]
  simp (disch := rfl) only [byteOf, BitVec.extractLsb'_append_extractLsb'_eq_extractLsb']
  exact BitVec.extractLsb'_eq_self

/-- Settles O53: bytes that stand side by side in a block are put together again, and `unpack_pack` is the converse. -/
theorem bytesAreBigEndian : Obligations.BytesAreBigEndian :=
  ⟨fun b => ⟨pack_unpack b, hiWord_eq_bytes b, loWord_eq_bytes b⟩, fun _ => unpack_pack⟩

end Sys2Proof.Machine
end
